-- ==== Sys2Proof/Word.lean ====
section
/-! DEFINITION. The plain words of the model: bytes, audio samples, and total access to fixed tables by number. -/

namespace Sys2Proof

/-- One byte of the control link. -/
abbrev Byte := BitVec 8

/-- One audio sample, 16-bit signed (00_scope.md section 3.2). -/
abbrev Sample := BitVec 16

/-- The entry of a fixed table under a number; `d` where the table has no such entry. -/
def vget {α : Type} {n : Nat} (v : Vector α n) (i : Nat) (d : α) : α := v[i]?.getD d

/-- The table with the entry under a number replaced; unchanged where the table has no such entry. -/
def vset {α : Type} {n : Nat} (v : Vector α n) (i : Nat) (x : α) : Vector α n := v.setIfInBounds i x

/-- The table with the entry under a number changed by `f`; unchanged where there is none. -/
def vmod {α : Type} {n : Nat} (v : Vector α n) (i : Nat) (f : α → α) : Vector α n :=
  match v[i]? with
  | some x => v.setIfInBounds i (f x)
  | none => v

/-- The nearest number of `0..hi` (R4, clamped). -/
def clampNat (hi n : Nat) : Nat := min n hi

/-- The nearest number of `lo..hi` (R4, clamped). -/
def clampInt (lo hi n : Int) : Int := max lo (min n hi)

end Sys2Proof
end

