-- ==== Sys2Proof/Syntax.lean ====
section
/-! DEFINITION. The commands and events of the 4860: one constructor of `Instr` per row of spec/opcode_table.json, with the
operands the rules give the row. Indices and enumerated choices are carried as the numbers the host sends (an enumerated
value as its place in the listed order, counting from 0, as R21 and R200 number them), so that a number out of its range can
be refused as R200 says. -/

namespace Sys2Proof

/-- The rank of an offered fault (R194). -/
inductive Rank | low | high
  deriving DecidableEq, Repr

/-- The store of a checked word (R191 to R193). -/
inductive Store | mix | line
  deriving DecidableEq, Repr

/-- How an error was found (R191 to R193). -/
inductive FoundBy | scrub | use
  deriving DecidableEq, Repr

/-- The kinds of line, in the order of R5. -/
inductive LineKind | ringdown | manual | hoot
  deriving DecidableEq, Repr

/-- Record policies, in the order of R5. -/
inductive Policy | none | bestEffort | required
  deriving DecidableEq, Repr

/-- Lead senses, in the order of R5. -/
inductive Sense | normal | inverted
  deriving DecidableEq, Repr

/-- Edge reports, in the order of R5. -/
inductive EdgeReport | none | rise | fall | both
  deriving DecidableEq, Repr

/-- The provisioned fields of a line record (R5). Position `p` is in the appearance set when bit `p` of it is 1. -/
structure LineProv where
  kind     : LineKind
  appear   : BitVec 24
  policy   : Policy
  ringCue  : Option Nat
  holdCue  : Option Nat
  sense    : Sense
  edge     : EdgeReport
  /-- milliseconds, 1 to 255 -/
  debounce : Nat
  deriving DecidableEq, Repr

/-- The unprovisioned values of R5. -/
def LineProv.blank : LineProv :=
  { kind := .ringdown, appear := 0, policy := .none, ringCue := none, holdCue := none,
    sense := .normal, edge := .none, debounce := 20 }

/-- Damage that strikes one protected word (section 10.5 gives what a check of it yields). A doubly
damaged line record also says how its provisioned fields now read. -/
inductive Upset
  /-- a bit error in Mix Store word `index` whose check yields `syndrome` -/
  | mix (index : Nat) (double : Bool) (syndrome : BitVec 8)
  /-- a bit error in the record of line `line` -/
  | line (line : Nat) (double : Bool) (syndrome : BitVec 8) (reads : LineProv)
  deriving DecidableEq, Repr

/-- One frame of a line highway: 48 timeslots and 48 lead bits (R179). -/
structure LineFrame where
  samples : Vector Sample 48
  leads   : Vector Bool 48
  deriving DecidableEq, Repr

/-- What reaches the part's ports on one reference frame: the 72 microphone samples of the position highway (3 × position +
device), the RRDY input, and the damage that struck memory words before the frame's work and after it: an error of the second
kind may first be found by the frame's scrub event (R191). -/
structure FrameInput where
  mics   : Vector Sample 72
  rrdy   : Bool
  upsets : List Upset
  late   : List Upset
  deriving DecidableEq, Repr

/-- The arguments of DEFINE_POSITION (R11), in the order of R10's table. -/
structure PositionArgs where
  enabled  : Nat
  rxA : Nat
  rxB : Nat
  micA : Nat
  micB : Nat
  micS : Nat
  sideA : Nat
  sideB : Nat
  trimEA : Int
  trimEB : Int
  trimSL : Int
  trimSR : Int
  duck : Nat
  ringOut : Nat
  audible : Nat
  recallTime : Nat
  deriving DecidableEq, Repr

/-- An error offered to AU (R192 to R194). -/
structure Offer where
  rank     : Rank
  store    : Store
  index    : Nat
  syndrome : BitVec 8
  foundBy  : FoundBy
  deriving DecidableEq, Repr

/-- One row of spec/opcode_table.json each. A host command carries its tag first (R208). -/
inductive Instr
  /-- POWER_ON: the two rate straps, the RRDY level then, and the floor time READY is queued at, within the 50 ms of R207. -/
  | powerOn (baud1 baud0 rrdy : Bool) (readyAt : Nat)
  /-- LINK_BREAK -/
  | linkBreak
  /-- FRAME_RECEIVED: the bytes received since the last receiver event, the last of them a frame's last CRC byte. -/
  | frameReceived (bytes : List Byte)
  /-- FRAME_GAP_TIMEOUT: the bytes received since the last receiver event, before the gap. -/
  | frameGapTimeout (bytes : List Byte)
  /-- TRANSMIT_FRAME_DONE -/
  | transmitFrameDone
  /-- DEFINE_LINE -/
  | defineLine (tag line kind : Nat) (appear : BitVec 24) (policy : Nat) (ringCue holdCue : Option Nat)
      (sense edge debounce : Nat)
  /-- REMOVE_LINE -/
  | removeLine (tag line : Nat)
  /-- DEFINE_POSITION -/
  | definePosition (tag position : Nat) (args : PositionArgs)
  /-- SET_DEVICE_GAIN: which is RECEIVE 0, MIC 1, SIDETONE 2. -/
  | setDeviceGain (tag position device which code : Nat)
  /-- SET_TRIM: output is EA 0, EB 1, SL 2, SR 3. -/
  | setTrim (tag position output : Nat) (trim : Int)
  /-- DEFINE_SPEAKER: target kind none 0, hoot line 1, group 2. -/
  | defineSpeaker (tag position slot targetKind target side code priority listen : Nat)
  /-- DEFINE_GROUP: each member a position and a priority choice, off 0, on 1. -/
  | defineGroup (tag group : Nat) (members : List (Nat × Nat)) (talkCode revoke : Nat)
  /-- CUE_ROUTE -/
  | cueRoute (tag route : Nat) (player : Option Nat) (output code : Nat)
  /-- SET_GUARD -/
  | setGuard (tag cls level : Nat)
  /-- DIGEST -/
  | digest (tag : Nat)
  /-- DIGEST_FINISH -/
  | digestFinish
  /-- READ_LINE -/
  | readLine (tag line : Nat)
  /-- READ_POSITION -/
  | readPosition (tag position : Nat)
  /-- SEIZE -/
  | seize (tag line position device : Nat)
  /-- LEAVE -/
  | leave (tag line position device : Nat)
  /-- HOLD -/
  | hold (tag line position device : Nat)
  /-- RING -/
  | ring (tag line : Nat)
  /-- SET_PRIVACY -/
  | setPrivacy (tag line position onOff : Nat)
  /-- RELEASE_LINE -/
  | releaseLine (tag line : Nat)
  /-- SPEAKER_LISTEN -/
  | speakerListen (tag position slot onOff : Nat)
  /-- SPEAKER_GAIN -/
  | speakerGain (tag position slot code : Nat)
  /-- SPEAKER_TALK_PRESS -/
  | speakerTalkPress (tag position slot : Nat)
  /-- SPEAKER_TALK_RELEASE -/
  | speakerTalkRelease (tag position slot : Nat)
  /-- GROUP_TALK_PRESS -/
  | groupTalkPress (tag position group : Nat)
  /-- GROUP_TALK_RELEASE -/
  | groupTalkRelease (tag position group : Nat)
  /-- IDLE_REVOKE -/
  | idleRevoke (group position : Nat)
  /-- REFRESH_OUTPUT -/
  | refreshOutput (tag output : Nat)
  /-- READ_MIX -/
  | readMix (tag output : Nat)
  /-- CUE_LOAD: addressing is ABS 0, REL 1. -/
  | cueLoad (tag player addressing value count : Nat) (samples : List Sample)
  /-- CUE_START: mode is SINGLE 0, CONTINUOUS 1. -/
  | cueStart (tag player mode block : Nat)
  /-- CUE_STOP -/
  | cueStop (tag player : Nat)
  /-- CUE_CONFIG -/
  | cueConfig (tag player window : Nat)
  /-- READ_CUE -/
  | readCue (tag player : Nat)
  /-- CUE_BLOCK_BOUNDARY -/
  | cueBlockBoundary (player : Nat)
  /-- JOURNAL_FETCH -/
  | journalFetch (tag : Nat) (start : BitVec 32) (count : Nat)
  /-- JOURNAL_RELEASE -/
  | journalRelease (tag : Nat) (upTo : BitVec 32)
  /-- READ_TAP -/
  | readTap (tag channel : Nat)
  /-- SET_TIME -/
  | setTime (tag : Nat) (time : BitVec 48)
  /-- STEER -/
  | steer (tag : Nat) (delta : Int)
  /-- STEERING_CORRECTION -/
  | steeringCorrection
  /-- SCHEDULE: action numbers in the order of R169's table, arguments as they are given. -/
  | schedule (tag : Nat) (due : BitVec 48) (action : Nat) (args : List Nat)
  /-- CANCEL -/
  | cancel (tag id : Nat)
  /-- READ_SCHEDULE -/
  | readSchedule (tag start : Nat)
  /-- ACTION_DUE -/
  | actionDue
  /-- PROBE -/
  | probe (tag line window : Nat)
  /-- PROBE_PHASE_CHANGE -/
  | probePhaseChange (line : Nat)
  /-- PROBE_END -/
  | probeEnd (line : Nat)
  /-- METER_OPEN -/
  | meterOpen (tag meter source : Nat)
  /-- METER_COUNT_FULL -/
  | meterCountFull (meter : Nat)
  /-- METER_CLOSE -/
  | meterClose (tag meter : Nat)
  /-- READ_FAULT -/
  | readFault (tag : Nat)
  /-- CLEAR_FAULT -/
  | clearFault (tag : Nat)
  /-- ACK_CONDITION -/
  | ackCondition (tag condition : Nat)
  /-- STATUS -/
  | status (tag : Nat)
  /-- RESTART -/
  | restart (tag : Nat)
  /-- RESTART_BEGIN -/
  | restartBegin
  /-- REFERENCE_FRAME -/
  | referenceFrame (input : FrameInput)
  /-- DEBOUNCED_CHANGE: the line and the new debounced value. -/
  | debouncedChange (line : Nat) (asserted : Bool)
  /-- RISE_EVENT -/
  | riseEvent (line : Nat)
  /-- FALL_EVENT -/
  | fallEvent (line : Nat)
  /-- BURST_EVENT: the line and the burst length in frames. -/
  | burstEvent (line length : Nat)
  /-- OUTGOING_BURST_END -/
  | outgoingBurstEnd (line : Nat)
  /-- RECALL_DEADLINE_EXPIRY -/
  | recallDeadlineExpiry (line : Nat)
  /-- RING_TIMEOUT -/
  | ringTimeout (line : Nat)
  /-- DETECTOR_HOLD_EXPIRY -/
  | detectorHoldExpiry (source : Nat)
  /-- ACTIVITY_EVENT -/
  | activityEvent (source : Nat) (active : Bool)
  /-- HIGHWAY_FRAME_ARRIVAL -/
  | highwayFrameArrival (highway : Nat) (frame : LineFrame)
  /-- HIGHWAY_WINDOW_END: the highway and the arrival count of the window that ended. -/
  | highwayWindowEnd (highway arrivals : Nat)
  /-- HIGHWAY_GAP_LOSS -/
  | highwayGapLoss (highway : Nat)
  /-- LSU_HIGHWAY_LOSS -/
  | lsuHighwayLoss (highway : Nat)
  /-- LSU_HIGHWAY_RETURN -/
  | lsuHighwayReturn (highway : Nat)
  /-- LINE_HIGHWAY_LOST -/
  | lineHighwayLost (highway : Nat)
  /-- LINE_HIGHWAY_RESTORED -/
  | lineHighwayRestored (highway : Nat)
  /-- RRDY_CHANGE: the new reported level. -/
  | rrdyChange (ready : Bool)
  /-- SCRUB_MIX_CHECK -/
  | scrubMixCheck (index : Nat)
  /-- SCRUB_LINE_CHECK -/
  | scrubLineCheck (line : Nat)
  /-- FAULT_OFFER -/
  | faultOffer (offer : Offer)
  /-- LEN_OUT_OF_RANGE: the bytes received since the last receiver event, the last of them taken as LEN. -/
  | lenOutOfRange (bytes : List Byte)
  /-- BREAK_END -/
  | breakEnd
  deriving DecidableEq, Repr

/-- The commands of the control link, by the names R199's frames carry. SPEAKER_TALK and GROUP_TALK are one command each,
with press or release as an argument (R75, R77, R80, R82). -/
inductive Cmd
  | defineLine | removeLine | definePosition | setDeviceGain | setTrim | defineSpeaker | defineGroup | cueRoute | setGuard
  | digest | readLine | readPosition | seize | leave | hold | ring | setPrivacy | releaseLine | speakerListen | speakerGain
  | speakerTalk | groupTalk | refreshOutput | readMix | cueLoad | cueStart | cueStop | cueConfig | readCue | journalFetch
  | journalRelease | readTap | setTime | steer | schedule | cancel | readSchedule | probe | meterOpen | meterClose
  | readFault | clearFault | ackCondition | status | restart
  deriving DecidableEq, Repr

/-- The eight blocks (00_scope.md section 2.1). -/
inductive Block | cp | lsu | cc | mx | cue | cu | tu | au
  deriving DecidableEq, Repr

/-- The block that owns a command's subject (R199; each command's rule names it). -/
def Cmd.owner : Cmd → Block
  | .readMix => .mx
  | .cueLoad | .cueStart | .cueStop | .cueConfig | .readCue => .cue
  | .journalFetch | .journalRelease | .readTap => .cu
  | .setTime | .steer | .schedule | .cancel | .readSchedule => .tu
  | .meterOpen | .meterClose | .readFault | .clearFault => .au
  | .ackCondition | .status | .restart => .cp
  | .defineLine | .removeLine | .definePosition | .setDeviceGain | .setTrim | .defineSpeaker | .defineGroup | .cueRoute
  | .setGuard | .digest | .readLine | .readPosition | .seize | .leave | .hold | .ring | .setPrivacy | .releaseLine
  | .speakerListen | .speakerGain | .speakerTalk | .groupTalk | .refreshOutput | .probe => .cc

/-- The tag and command of a row that the host sends over the link; none for an event. -/
def Instr.host? : Instr → Option (Nat × Cmd)
  | .defineLine t _ _ _ _ _ _ _ _ _ => some (t, .defineLine)
  | .removeLine t _ => some (t, .removeLine)
  | .definePosition t _ _ => some (t, .definePosition)
  | .setDeviceGain t _ _ _ _ => some (t, .setDeviceGain)
  | .setTrim t _ _ _ => some (t, .setTrim)
  | .defineSpeaker t _ _ _ _ _ _ _ _ => some (t, .defineSpeaker)
  | .defineGroup t _ _ _ _ => some (t, .defineGroup)
  | .cueRoute t _ _ _ _ => some (t, .cueRoute)
  | .setGuard t _ _ => some (t, .setGuard)
  | .digest t => some (t, .digest)
  | .readLine t _ => some (t, .readLine)
  | .readPosition t _ => some (t, .readPosition)
  | .seize t _ _ _ => some (t, .seize)
  | .leave t _ _ _ => some (t, .leave)
  | .hold t _ _ _ => some (t, .hold)
  | .ring t _ => some (t, .ring)
  | .setPrivacy t _ _ _ => some (t, .setPrivacy)
  | .releaseLine t _ => some (t, .releaseLine)
  | .speakerListen t _ _ _ => some (t, .speakerListen)
  | .speakerGain t _ _ _ => some (t, .speakerGain)
  | .speakerTalkPress t _ _ => some (t, .speakerTalk)
  | .speakerTalkRelease t _ _ => some (t, .speakerTalk)
  | .groupTalkPress t _ _ => some (t, .groupTalk)
  | .groupTalkRelease t _ _ => some (t, .groupTalk)
  | .refreshOutput t _ => some (t, .refreshOutput)
  | .readMix t _ => some (t, .readMix)
  | .cueLoad t _ _ _ _ _ => some (t, .cueLoad)
  | .cueStart t _ _ _ => some (t, .cueStart)
  | .cueStop t _ => some (t, .cueStop)
  | .cueConfig t _ _ => some (t, .cueConfig)
  | .readCue t _ => some (t, .readCue)
  | .journalFetch t _ _ => some (t, .journalFetch)
  | .journalRelease t _ => some (t, .journalRelease)
  | .readTap t _ => some (t, .readTap)
  | .setTime t _ => some (t, .setTime)
  | .steer t _ => some (t, .steer)
  | .schedule t _ _ _ => some (t, .schedule)
  | .cancel t _ => some (t, .cancel)
  | .readSchedule t _ => some (t, .readSchedule)
  | .probe t _ _ => some (t, .probe)
  | .meterOpen t _ _ => some (t, .meterOpen)
  | .meterClose t _ => some (t, .meterClose)
  | .readFault t => some (t, .readFault)
  | .clearFault t => some (t, .clearFault)
  | .ackCondition t _ => some (t, .ackCondition)
  | .status t => some (t, .status)
  | .restart t => some (t, .restart)
  | .powerOn _ _ _ _ | .linkBreak | .frameReceived _ | .frameGapTimeout _ | .transmitFrameDone | .digestFinish
  | .idleRevoke _ _ | .cueBlockBoundary _ | .steeringCorrection | .actionDue | .probePhaseChange _ | .probeEnd _
  | .meterCountFull _ | .restartBegin | .referenceFrame _ | .debouncedChange _ _ | .riseEvent _ | .fallEvent _
  | .burstEvent _ _ | .outgoingBurstEnd _ | .recallDeadlineExpiry _ | .ringTimeout _ | .detectorHoldExpiry _
  | .activityEvent _ _ | .highwayFrameArrival _ _ | .highwayWindowEnd _ _ | .highwayGapLoss _ | .lsuHighwayLoss _
  | .lsuHighwayReturn _ | .lineHighwayLost _ | .lineHighwayRestored _ | .rrdyChange _ | .scrubMixCheck _
  | .scrubLineCheck _ | .faultOffer _ | .lenOutOfRange _ | .breakEnd => none

end Sys2Proof
end

