-- ==== Sys2Proof/Config.lean ====
section
/-! DEFINITION. What the manual does not give: free values without a body, so that nothing can be proved of them. Each is
named in notes/assumptions. -/

namespace Sys2Proof

/-- What CP makes of the payload of a complete frame whose KIND is a command's (R199 check 3, R200). -/
inductive FrameReading
  /-- the LEN is wrong for the command -/
  | badLength
  /-- the payload of a SPEAKER_TALK or GROUP_TALK whose press or release choice is out of its range -/
  | badChoice
  /-- the frame carries this command -/
  | command (i : Instr)
  deriving DecidableEq, Repr, Inhabited

/-- FREE VALUE (log 2). The k-th operand that a command's payload carries, where the manual gives no layout (R208); a negative
one stands for none. -/
opaque Config.operand : Cmd → List Byte → Nat → Int

/-- FREE VALUE (log 2). How many members a DEFINE_GROUP's payload lists, or how many arguments a SCHEDULE's. -/
opaque Config.listCount : Cmd → List Byte → Nat

/-- FREE VALUE (log 2). Which payload lengths are right for a command whose list holds so many elements (R199 check 3). -/
opaque Config.lengthFits : Cmd → Nat → Nat → Bool

/-- FREE VALUE (log 2). How many payload bytes stand before the field of a given form that a command carries among others. -/
opaque Config.fieldPlace : Cmd → Nat

/-- FREE VALUE (log 2). Which of the KIND codes 0x01 to 0x5F that are still unused each command takes (R208 gives the range).
-/
opaque Config.kindChoice : Cmd → Nat

/-- FREE VALUE (log 3). Which of the free words of the Mix Store a new entry is placed in (R101 does not say): the n-th
placement since power-on. -/
opaque Config.mixPlace : Nat → Nat

/-- FREE VALUE (log 4). How many frames past the first the READY that follows the reset state is queued: within the 50 ms, 800
frames, that R207 gives, so that its floor time is small and nonzero (R165). -/
opaque Config.readyDelay : Fin 800

/-- FREE VALUE (log 5). How far the silicon revision stands above the first. -/
opaque Config.revisionsAfterFirst : Fin 255

/-- The silicon revision READY carries: one byte counting from 1 (R207; log 5). -/
def Config.siliconRevision : Byte := BitVec.ofNat 8 (Config.revisionsAfterFirst.val + 1)

end Sys2Proof
end

