-- ==== Sys2Proof/WellFormed.lean ====
section
/-! DEFINITION. Which commands and events can reach the part: tags are one byte, and an event names an existing line, source,
highway, player or word. A command's own indices and quantities may be any number; its rule refuses or clamps them. -/

namespace Sys2Proof

/-- Damage strikes an existing word, and a check of a damaged word yields a nonzero syndrome (section 10.5). -/
def Upset.wf : Upset → Bool
  | .mix i _ syn => decide (i < 3072) && syn != 0
  | .line n _ syn _ => decide (n < 192) && syn != 0

/-- An offer names an existing word, with a nonzero syndrome (R192, R193). -/
def Offer.wf (o : Offer) : Bool :=
  o.syndrome != 0 && match o.store with
    | .mix => decide (o.index < 3072)
    | .line => decide (o.index < 192)

/-- The ranges an event's operands have; a host command's tag is one byte (R208). -/
def Instr.wf (i : Instr) : Bool :=
  match i.host? with
  | some (tag, _) => decide (tag < 256)
  | none => match i with
    | .powerOn _ _ _ n => decide (1 ≤ n ∧ n ≤ 800)
    | .idleRevoke g pos => decide (g < 32 ∧ pos < 24)
    | .cueBlockBoundary k => decide (k < 8)
    | .probePhaseChange n | .probeEnd n | .debouncedChange n _ | .riseEvent n | .fallEvent n | .outgoingBurstEnd n
    | .recallDeadlineExpiry n | .ringTimeout n | .scrubLineCheck n => decide (n < 192)
    | .burstEvent n len => decide (n < 192 ∧ 3200 ≤ len ∧ len ≤ 32000)
    | .meterCountFull m => decide (m < 4)
    | .referenceFrame f => (f.upsets ++ f.late).all Upset.wf
    | .detectorHoldExpiry s => decide (s < 264)
    | .activityEvent s _ => decide (s < 304)
    | .highwayFrameArrival h _ | .highwayGapLoss h | .lsuHighwayLoss h | .lsuHighwayReturn h | .lineHighwayLost h
    | .lineHighwayRestored h => decide (h < 4)
    | .highwayWindowEnd h a => decide (h < 4 ∧ a ≤ 65535)
    | .scrubMixCheck w => decide (w < 3072)
    | .faultOffer o => o.wf
    | _ => true

end Sys2Proof
end

