-- ==== Sys2Proof/Machine/State.lean ====
section
/-! DEFINITION. The state of the 4860 as plain data: the eight blocks (`Part`), the link's queues and receiver (`Link`), and
the commands that wait to be taken (`pending`). Each field names the rule that gives it. -/

namespace Sys2Proof.Machine

open Sys2Proof

/-! ### Line Signalling Unit -/

/-- LSU's state of one port (R24), with its own copy of the line's settings. -/
structure Port where
  /-- R24 sensed bit; true is asserted -/
  sensed      : Bool := false
  /-- R24 debounced value -/
  debounced   : Bool := false
  /-- R24 stable count -/
  stable      : Nat := 0
  /-- R24 outgoing lead, before the lead sense -/
  outLead     : Bool := false
  /-- R24 burst remaining, frames -/
  burst       : Nat := 0
  /-- R24 incoming burst timer; none is idle -/
  inTimer     : Option Nat := none
  /-- R24 sampling -/
  sampling    : Bool := false
  /-- R34: the raw lead bit the latest frame sent to the line highway -/
  sentBit     : Bool := false
  kind        : LineKind := .ringdown
  sense       : Sense := .normal
  edge        : EdgeReport := .none
  /-- milliseconds -/
  debounce    : Nat := 20
  provisioned : Bool := false
  outOfService : Bool := false
  deriving DecidableEq, Repr

/-! ### Connection Controller -/

/-- The devices of a position (00_scope.md section 3.3). -/
inductive Dev | ha | hb | sk
  deriving DecidableEq, Repr

/-- The speaker sides. -/
inductive Side | sl | sr
  deriving DecidableEq, Repr

/-- Line states (R42). -/
inductive LState
  | unprovisioned | idle | ringingIn | calling | connected | clearing | held | opened | probing | outOfService
  deriving DecidableEq, Repr

/-- Out-of-service causes (R42). -/
inductive OosCause | highway | memory
  deriving DecidableEq, Repr

/-- Probe phases (R42, R186). -/
inductive Phase | toneOn | toneOff
  deriving DecidableEq, Repr

/-- What a check of a damaged line record will find (R193). -/
inductive LineDamage
  | single (syndrome : BitVec 8)
  | double (syndrome : BitVec 8) (reads : LineProv)
  deriving DecidableEq, Repr

/-- A (position, device) pair. -/
abbrev Occupant := Nat × Dev

/-- A line record: the provisioned fields (R5) and the live fields (R42). -/
structure Line where
  prov          : LineProv := LineProv.blank
  state         : LState := .unprovisioned
  /-- in join order -/
  occupants     : List Occupant := []
  privacy       : Bool := false
  holdOwner     : Option Nat := none
  /-- frames remaining -/
  recallTime        : Option Nat := none
  /-- on or off while HELD, absent in every other state (R42) -/
  recallExpired : Option Bool := none
  lingering     : Bool := false
  oosCause      : Option OosCause := none
  /-- frames remaining -/
  ringTimeout   : Option Nat := none
  probePhase    : Option Phase := none
  /-- damage in the protected word that no check has found yet (section 10.5) -/
  damage        : Option LineDamage := none
  deriving DecidableEq, Repr

/-- What a position's SK talks in or waits for (R74). -/
inductive SkTarget
  | hoot (line : Nat)
  | group (g : Nat)
  deriving DecidableEq, Repr

/-- The SK talk entry of a position, when its target is not none (R74). -/
structure SkEntry where
  target  : SkTarget
  /-- the slot the talk was requested through; none when requested by GROUP_TALK -/
  through : Option Nat
  /-- standing TALKING (true) or WAITING (false) -/
  talking : Bool
  deriving DecidableEq, Repr

/-- A position record (R10), with its line lists and SK talk entry (R43). -/
structure Position where
  enabled : Bool := false
  rxA     : Nat := 64
  rxB     : Nat := 64
  micA    : Nat := 64
  micB    : Nat := 64
  micS    : Nat := 64
  sideA   : Nat := 40
  sideB   : Nat := 40
  trimEA  : Int := 0
  trimEB  : Int := 0
  trimSL  : Int := 0
  trimSR  : Int := 0
  duck    : Nat := 12
  ringOut : Side := .sl
  audible : Bool := true
  /-- hold recall time, seconds -/
  recallTime  : Nat := 120
  /-- the lines HA occupies, in join order -/
  linesA  : List Nat := []
  /-- the lines HB occupies, in join order -/
  linesB  : List Nat := []
  sk      : Option SkEntry := none
  deriving DecidableEq, Repr

/-- What a speaker slot is tuned to (R14). -/
inductive Target
  | none
  | hoot (line : Nat)
  | group (g : Nat)
  deriving DecidableEq, Repr

/-- A speaker slot (R14). -/
structure Slot where
  target   : Target := .none
  side     : Side := .sl
  gain     : Nat := 64
  priority : Bool := false
  listen   : Bool := false
  /-- talk state TALKING of a slot with a hoot target (R74) -/
  talking  : Bool := false
  deriving DecidableEq, Repr

/-- A talker of a group with its idle count, frames (R79, R84). -/
structure Talker where
  position : Nat
  idle     : Nat
  deriving DecidableEq, Repr

/-- A group record (R16) with the arbiter's lists (R79). -/
structure Group where
  members  : List (Nat × Bool) := []
  talkCode : Nat := 64
  /-- idle revoke time, seconds -/
  revoke   : Nat := 30
  /-- in grant order -/
  talkers  : List Talker := []
  waiters  : List Nat := []
  deriving DecidableEq, Repr

/-- A cue route in use (R17). -/
structure Route where
  player : Nat
  output : Nat
  code   : Nat
  deriving DecidableEq, Repr

/-- Guard levels (R18). -/
inductive Level | opened | guarded | locked
  deriving DecidableEq, Repr

/-- A digest that is running (R20, R21): the next record in canonical order and the CRC register. -/
structure DigestRun where
  next : Nat
  crc  : BitVec 32
  deriving DecidableEq, Repr

/-- The Connection Controller. -/
structure CC where
  lines     : Vector Line 192 := Vector.replicate 192 {}
  /-- CC's copy of each line's kind, kept apart from the protected record (R61) -/
  kinds     : Vector LineKind 192 := Vector.replicate 192 .ringdown
  positions : Vector Position 24 := Vector.replicate 24 {}
  /-- slot `k` of position `p` is entry 12p + k -/
  slots     : Vector Slot 288 := Vector.replicate 288 {}
  groups    : Vector Group 32 := Vector.replicate 32 {}
  routes    : Vector (Option Route) 32 := Vector.replicate 32 none
  /-- LINES, POSITIONS, SPEAKERS, GROUPS (R18) -/
  guards    : Vector Level 4 := Vector.replicate 4 .opened
  digest    : Option DigestRun := none
  /-- CC's record of each source's activity, ACTIVE true (R84) -/
  activity  : Vector Bool 304 := Vector.replicate 304 false
  deriving DecidableEq, Repr

/-! ### Mix Engine -/

/-- An entry of the Mix Store in use (R91); its output is the list it stands in. -/
structure Entry where
  /-- the word of the store that holds it, 0 to 3071 -/
  index     : Nat
  source    : Nat
  code      : Nat
  essential : Bool
  duckable  : Bool
  target    : Nat := 0
  applied   : Nat := 0
  poisoned  : Bool := false
  deriving DecidableEq, Repr

/-- Damage in a Mix Store word that no check has found yet (section 10.5). -/
structure MixDamage where
  index    : Nat
  double   : Bool
  syndrome : BitVec 8
  deriving DecidableEq, Repr

/-- The activity detector of one line receive or microphone source (R110, R124, R125). -/
structure Detector where
  envelope : Nat := 0
  active   : Bool := false
  below    : Nat := 0
  deriving DecidableEq, Repr

/-- A talker of a group as MX holds it (R110, R119). -/
structure BusTalker where
  position : Nat
  coef     : Nat
  deriving DecidableEq, Repr

/-- MX's copies for one position (R110). -/
structure MixPosition where
  trimEA   : Int := 0
  trimEB   : Int := 0
  trimSL   : Int := 0
  trimSR   : Int := 0
  duck     : Nat := 12
  /-- handset-busy mark -/
  busy     : Bool := false
  /-- the sources its listening priority slots target, ascending -/
  priority : List Nat := []
  ducking  : Bool := false
  deriving DecidableEq, Repr

/-- The Mix Engine. -/
structure MX where
  /-- the mix list of each output, ascending by source (R91) -/
  lists     : Vector (List Entry) 320 := Vector.replicate 320 []
  omitted   : Vector Bool 320 := Vector.replicate 320 false
  clip      : Vector Bool 320 := Vector.replicate 320 false
  damage    : List MixDamage := []
  positions : Vector MixPosition 24 := Vector.replicate 24 {}
  talkers   : Vector (List BusTalker) 32 := Vector.replicate 32 []
  /-- sources 0 to 263 -/
  detectors : Vector Detector 264 := Vector.replicate 264 {}
  /-- activity of the group buses, sources 264 to 295 (R126) -/
  groupActive : Vector Bool 32 := Vector.replicate 32 false
  /-- activity of the cue players, sources 296 to 303: stays INACTIVE (R126) -/
  cueActive : Vector Bool 8 := Vector.replicate 8 false
  /-- the output samples of the latest frame (R112) -/
  outputs   : Vector Sample 320 := Vector.replicate 320 0
  /-- MODEL: how many entries have been placed, the argument of the free value Config.mixPlace -/
  placed    : Nat := 0
  deriving DecidableEq, Repr

/-! ### Cue Players -/

/-- A cue player (R128). -/
structure Player where
  ring       : Vector (Vector Sample 32) 64 := Vector.replicate 64 (Vector.replicate 32 0)
  valid      : Vector Bool 64 := Vector.replicate 64 false
  /-- state PLAYING -/
  playing    : Bool := false
  /-- mode CONTINUOUS -/
  continuous : Bool := false
  block      : Nat := 0
  sample     : Nat := 0
  window     : Nat := 32
  underrun   : Bool := false
  /-- the sample offered to MX on the latest frame (R130) -/
  offered    : Sample := 0
  deriving DecidableEq, Repr

/-- The Cue Players. -/
structure CUE where
  players : Vector Player 8 := Vector.replicate 8 {}
  deriving DecidableEq, Repr

/-! ### Capture Unit -/

/-- An open tap's record; its channel is its place in the pool (R144). -/
structure Tap where
  position : Nat
  device   : Dev
  ref      : Nat
  openTime : Nat
  lines    : List Nat
  beyond   : Nat
  gap      : Bool
  deriving DecidableEq, Repr

/-- Kinds of journal entry, in the order of R208's codes. -/
inductive JKind | tapOpen | tapClose | lineJoin | lineLeave | tapDenied | recorderLost | recorderBack | timeStep
  deriving DecidableEq, Repr

/-- Close causes (R153). -/
inductive CloseCause | deviceIdle | restart | lineLost
  deriving DecidableEq, Repr

/-- A held journal entry (R147). -/
structure JEntry where
  seq      : Nat
  time     : Nat
  kind     : JKind
  gap      : Bool
  channel  : Option Nat := none
  position : Option Nat := none
  device   : Option Dev := none
  line     : Option Nat := none
  ref      : Option Nat := none
  close    : Option CloseCause := none
  /-- the floor time before the step, of a TIME_STEP -/
  oldTime  : Option Nat := none
  deriving DecidableEq, Repr

/-- CU's held answer to a seize (R149). -/
inductive CUAnswer
  | positive (channel position : Nat) (device : Dev)
  | noRecorder
  | journalFull
  deriving DecidableEq, Repr

/-- The Capture Unit. -/
structure CU where
  /-- the recorder channels: none is FREE (R143) -/
  taps      : Vector (Option Tap) 32 := Vector.replicate 32 none
  callRef   : Nat := 1
  /-- oldest first (R146) -/
  journal   : List JEntry := []
  seq       : Nat := 1
  /-- the dropped mark (R148) -/
  dropped   : Bool := false
  recorderReady : Bool := false
  /-- held only inside a SEIZE (R149) -/
  answer    : Option CUAnswer := none
  deriving DecidableEq, Repr

/-! ### Time Unit -/

/-- An action as it was handed over: its number in R169's table and its arguments. -/
structure Action where
  kind : Nat
  args : List Nat
  deriving DecidableEq, Repr

/-- An entry of the Action Schedule (R169). -/
structure SchedEntry where
  id     : Nat
  due    : Nat
  action : Action
  late   : Bool
  deriving DecidableEq, Repr

/-- The Time Unit (R165). -/
structure TU where
  floorTime  : Nat := 0
  synced     : Bool := false
  steerRem   : Int := 0
  steerCount : Nat := 0
  /-- in order of due time (R169) -/
  schedule   : List SchedEntry := []
  nextId     : Nat := 1
  /-- MODEL: entries a frame has removed and handed over and their owners have not yet taken (R172), with the run time -/
  handed     : List (SchedEntry × Nat) := []
  /-- MODEL: a frame on which a steering correction falls has come and TU has not yet taken it -/
  frameWaits : Bool := false
  deriving DecidableEq, Repr

/-! ### Assurance Unit -/

/-- Highway states (R178). -/
inductive HwState | ok | slipping | lost
  deriving DecidableEq, Repr

/-- A frame of silence with every lead bit 0 (R179). -/
def silence : LineFrame := { samples := Vector.replicate 48 0, leads := Vector.replicate 48 false }

/-- A line highway (R178). -/
structure Highway where
  state    : HwState := .lost
  window   : Nat := 0
  arrivals : Nat := 0
  gap      : Nat := 0
  buffer   : List LineFrame := []
  current  : LineFrame := silence
  slipsCounted : Bool := false
  slips    : Nat := 0
  deriving DecidableEq, Repr

/-- A probe record (R185). -/
structure Probe where
  line   : Nat
  window : Nat
  phase  : Phase
  done   : Nat
  onSum  : Nat
  offSum : Nat
  deriving DecidableEq, Repr

/-- An open level meter (R189). -/
structure Meter where
  source : Nat
  count  : Nat
  sum    : Nat
  /-- counting and adding: no once the frame count has reached its maximum -/
  counting : Bool
  deriving DecidableEq, Repr

/-- The fault held in the Fault Record (R194). -/
structure FaultRec where
  rank     : Rank
  store    : Store
  index    : Nat
  syndrome : BitVec 8
  time     : Nat
  foundBy  : FoundBy
  deriving DecidableEq, Repr

/-- The Assurance Unit. -/
structure AU where
  highways  : Vector Highway 4 := Vector.replicate 4 {}
  /-- RRDY: the reported level and the hold count (R184) -/
  rrdy      : Bool := false
  rrdyHold  : Nat := 0
  /-- the next sample of RRDY is the first since power-on and becomes the reported level without the hold (R184) -/
  rrdyFresh : Bool := false
  probes    : List Probe := []
  meters    : Vector (Option Meter) 4 := Vector.replicate 4 none
  scrub     : Nat := 0
  fault     : Option FaultRec := none
  mixCorrected  : Nat := 0
  lineCorrected : Nat := 0
  deriving DecidableEq, Repr

/-! ### Control Port: conditions, op slots, messages -/

/-- A condition's cause and latch (R204). -/
structure Cond where
  cause : Bool := false
  latch : Bool := false
  deriving DecidableEq, Repr

/-- Long operations (R203). -/
inductive OpKind
  | probe (line : Nat)
  | digest
  deriving DecidableEq, Repr

/-- Results of long operations (R203). -/
inductive OpResult
  | ok (crc : BitVec 32)
  | disturbed
  | pass (on off : Nat)
  | fail (on off : Nat)
  | aborted
  deriving DecidableEq, Repr

/-- A busy op slot (R203). -/
structure OpSlot where
  tag    : Nat
  op     : OpKind
  result : Option OpResult
  deriving DecidableEq, Repr

/-- The causes of LINE_STATE (R44). -/
inductive LineCause
  | defined | removed | farRing | burst | seized | answered | farAnswer | farClear | farReturn | abandoned | ringTimeout
  | joined | left | hold | pickup | released | privacy | highway | memory | restored | probe | probeEnd
  deriving DecidableEq, Repr

/-- The events of TALK (R87). -/
inductive TalkEvent | granted | waiting | withdrawn | released | revoked
  deriving DecidableEq, Repr

/-- The cause of a start (R205). -/
inductive StartCause | power | restart
  deriving DecidableEq, Repr

/-- Result codes, in the order of R200. -/
inductive Result
  | ok | accepted | badFormat | unknownKind | badValue | guarded | locked | wrongState | busy | positionOff | notAppearing
  | outOfService | duplicate | deviceFull | lineFull | lineShared | privateLine | notOccupant | notMember | deviceBusy
  | groupFull | mixFull | noRecorder | journalFull | scheduleFull | tooLate | notFound | window | opsFull | referenced
  | unsettled
  deriving DecidableEq, Repr

/-- The notices (R201) and the fields each carries. -/
inductive Notice
  | ready (cause : StartCause) (floorTime : Nat) (synced : Bool) (vendor : Byte) (part : Nat) (revision : Byte)
  | lineState (line : Nat) (state : LState) (cause : LineCause) (occupants : List Occupant) (privacy : Bool)
      (holdOwner : Option Nat) (oosCause : Option OosCause)
  | lead (line : Nat) (rise : Bool)
  | ringBurst (line length : Nat)
  | holdRecall (line owner : Nat)
  | activity (source : Nat) (active : Bool)
  | talk (group position : Nat) (event : TalkEvent) (place : Option Nat) (talkers waiters : Nat)
  | actionDone (id kind : Nat) (result : Result) (late : Bool) (time : Nat)
  | opDone (tag : Nat) (op : OpKind) (result : OpResult)
  | condition (n : Nat)
  | fault (store : Store) (index : Nat) (syndrome : BitVec 8) (time : Nat) (foundBy : FoundBy) (kept : Bool)
  deriving DecidableEq, Repr

/-- A notice as CP queues it, with the header's serial and floor time (R201, R208). -/
structure QNotice where
  serial : Nat
  time   : Nat
  body   : Notice
  deriving DecidableEq, Repr

/-- READ_LINE's report (R45). -/
structure LineReport where
  line   : Line
  port   : Port
  deriving DecidableEq, Repr

/-- A group of which the position is a member, as READ_POSITION reports it (R46). -/
structure GroupReport where
  group   : Nat
  talkers : List Talker
  waiters : List Nat
  deriving DecidableEq, Repr

/-- READ_POSITION's report (R46): each slot with the activity of its target source, and length and omitted flag of each of
the four outputs. -/
structure PositionReport where
  position : Position
  slots    : List (Slot × Bool)
  outputs  : List (Nat × Bool)
  ducking  : Bool
  groups   : List GroupReport
  deriving DecidableEq, Repr

/-- An entry as READ_MIX reports it (R106). -/
structure EntryReport where
  source    : Nat
  code      : Nat
  essential : Bool
  duckable  : Bool
  target    : Nat
  applied   : Nat
  deriving DecidableEq, Repr

/-- READ_MIX's report (R106). -/
structure MixReport where
  output   : Nat
  entries  : List EntryReport
  poisoned : Nat
  omitted  : Bool
  clip     : Bool
  used     : Nat
  deriving DecidableEq, Repr

/-- READ_CUE's report (R140). -/
structure CueReport where
  playing    : Bool
  continuous : Bool
  block      : Nat
  sample     : Nat
  window     : Nat
  underrun   : Bool
  valid      : Vector Bool 64
  deriving DecidableEq, Repr

/-- JOURNAL_FETCH's report (R159): each entry in its 20-byte form. -/
structure FetchReport where
  entries : List (List Byte)
  count   : Nat
  oldest  : Option Nat
  used    : Nat
  dropped : Bool
  deriving DecidableEq, Repr

/-- READ_SCHEDULE's report (R176). -/
structure ScheduleReport where
  floorTime : Nat
  synced    : Bool
  remainder : Int
  count     : Nat
  entries   : List SchedEntry
  deriving DecidableEq, Repr

/-- READ_FAULT's report (R195): the output is the one whose list a MIX fault's entry belongs to. -/
structure FaultReport where
  fault  : Option FaultRec
  output : Option Nat
  mix    : Nat
  line   : Nat
  deriving DecidableEq, Repr

/-- STATUS's report (R205). -/
structure StatusReport where
  start     : StartCause
  floorTime : Nat
  synced    : Bool
  highways  : List HwState
  ready     : Bool
  mixUsed   : Nat
  taps      : Nat
  journal   : Nat
  schedule  : Nat
  ops       : Nat
  conds     : List Cond
  crcErrors : Nat
  gaps      : Nat
  overruns  : Nat
  slips     : List Nat
  noticesLost : Bool
  deriving DecidableEq, Repr

/-- What a reply carries after its result byte. -/
inductive Info
  | none
  | granted
  | waiting (place : Nat)
  | loaded (first block sample : Nat)
  | pointer (block sample : Nat)
  | window (w : Nat)
  | oldTime (t : Nat)
  | replaced (remainder : Int)
  | scheduled (id : Nat) (late : Bool)
  | refreshed (length : Nat) (omitted : Bool)
  | released (freed : Nat) (oldest : Option Nat) (used : Nat)
  | level (level count : Nat)
  | cond (latch cause : Bool)
  | line (r : LineReport)
  | position (r : PositionReport)
  | mix (r : MixReport)
  | cue (r : CueReport)
  | fetched (r : FetchReport)
  | tap (r : Option (Tap × List Nat))
  | schedule (r : ScheduleReport)
  | fault (r : FaultReport)
  | status (r : StatusReport)
  deriving DecidableEq, Repr

/-- The kind a reply answers: a command of the part, or the KIND byte CP did not take (R199). -/
inductive ReplyKind
  | cmd (c : Cmd)
  | raw (kind : Byte)
  deriving DecidableEq, Repr

/-- A place of the reply queue: held from the moment CP takes a command, with its answer once the owner has given it (R199).
-/
structure Place where
  tag    : Nat
  kind   : ReplyKind
  answer : Option (Result × Info)
  deriving DecidableEq, Repr

/-- A frame being sent (R202). -/
inductive TxFrame
  | reply (tag : Nat) (kind : ReplyKind) (result : Result) (info : Info)
  | notice (n : QNotice)
  deriving DecidableEq, Repr

/-- How far a start has come: commands are taken; a RESTART has been taken and its reply is not yet sent, or the restart is
under way (R206); READY follows power-on in so many reference frames (R207). -/
inductive LinkPhase
  | running
  | restartTaken
  | restarting
  | starting (frames : Nat)
  deriving DecidableEq, Repr

/-- The part sends no frame while it is restarting, and none before READY after power-on (R202). -/
def LinkPhase.silent : LinkPhase → Bool
  | .starting _ | .restarting => true
  | .running | .restartTaken => false

/-- The link side of CP: receiver, reply queue, notice queue, transmitter and counts (R196 to R202, R205). -/
structure Link where
  /-- the straps BAUD1, BAUD0 read at power-on (R196) -/
  baud1 : Bool := false
  baud0 : Bool := false
  phase : LinkPhase := .running
  start : StartCause := .power
  /-- the bytes from a SYNC on that the receiver has not yet resolved; empty in hunt (R197) -/
  rxBuf : List Byte := []
  /-- a break is on: the receiver waits for the line to go high (R198) -/
  inBreak : Bool := false
  replies : List Place := []
  notices : List QNotice := []
  serial  : Nat := 0
  noticesLost : Bool := false
  crcErrors : Nat := 0
  gaps      : Nat := 0
  overruns  : Nat := 0
  tx : Option TxFrame := none
  deriving DecidableEq, Repr

/-- The blocks behind the link. -/
structure Part where
  ports   : Vector Port 192 := Vector.replicate 192 {}
  cc      : CC := {}
  mx      : MX := {}
  cue     : CUE := {}
  cu      : CU := {}
  tu      : TU := {}
  au      : AU := {}
  /-- CP's op slots (R203) -/
  ops     : Vector (Option OpSlot) 4 := Vector.replicate 4 none
  /-- the op slots whose results wait to be queued, in the order the results were placed (R203) -/
  opsDone : List Nat := []
  /-- the 19 conditions (R204) -/
  conds   : Vector Cond 19 := Vector.replicate 19 {}
  /-- events and commands handed to a block that it has not yet taken, oldest first (R31, R47, R199) -/
  events  : List Instr := []
  /-- MODEL: notices of the event being taken that go to CP ahead of its reply; empty between steps -/
  early   : List Notice := []
  /-- MODEL: notices of the event being taken that go to CP after its reply; empty between steps -/
  outbox  : List Notice := []
  deriving DecidableEq, Repr

/-- The machine. -/
structure State where
  part    : Part := {}
  link    : Link := {}
  /-- the commands and events that wait to be taken, first in, first out -/
  pending : List Instr := []
  deriving DecidableEq, Repr

/-- No rule of the spec stops the part: every command is answered and every event is taken or left without effect, so there
is no fault. -/
inductive Fault
  deriving DecidableEq, Repr

/-- Refusals of the model itself. -/
inductive Refusal
  /-- Raised by exec's arm of a row without a meaning (none is left). Safe: the model stops. -/
  | notModelled (mnemonic : String)
  deriving DecidableEq, Repr

/-- The conditions as power-on leaves them: every latch clear, the causes of the four LOST highways present, and
RECORDER_LOST's until the first frame samples RRDY (R178, R184, R204; log 6). -/
def resetConds : Vector Cond 19 :=
  Vector.ofFn fun i => { cause := decide (i.val < 4 ∨ i.val = 8), latch := false }

/-- The reference frames from the reset state to READY, 1 to 800 (R207; log 4). -/
def resetFrames : Nat := Config.readyDelay.val + 1

/-- The part when power-on begins: every block at its power-on values (R9, R10, R14, R16 to R18, R22, R41, R43, R74, R79,
R91, R92, R110, R129, R143, R164, R165, R178, R184, R185, R189, R191, R195, R203 to R205, R207), the straps and RRDY low
(log 6), and READY to come (log 4). -/
def State.reset : State :=
  { part := { au := { rrdyFresh := true }, conds := resetConds }
    link := { phase := .starting resetFrames } }

end Sys2Proof.Machine
end

