-- ==== Sys2Proof/Machine/Arith.lean ====
section
/-! DEFINITION. Arithmetic the rules share: checksums (R21, R197), bytes (R208), the coefficient table (R116), the two
roundings (R109) and the limits of samples (R120, R122). -/

namespace Sys2Proof.Machine

open Sys2Proof

/-- The `k` low bytes of a number, high byte first (R208). -/
def bytesBE : Nat → Nat → List Byte
  | 0, _ => []
  | k + 1, n => BitVec.ofNat 8 (n / 256 ^ k) :: bytesBE k n

/-- The number that some bytes carry, high byte first (R208). -/
def natBE (bytes : List Byte) : Nat := bytes.foldl (fun n b => 256 * n + b.toNat) 0

/-- One bit of the CRC-16 of R197. -/
def crc16Bit (r : BitVec 16) : BitVec 16 := if r.msb then (r <<< 1) ^^^ 0x1021 else r <<< 1

/-- One byte into the CRC-16 of R197, most significant bit first. -/
def crc16Byte (r : BitVec 16) (b : Byte) : BitVec 16 :=
  crc16Bit (crc16Bit (crc16Bit (crc16Bit (crc16Bit (crc16Bit (crc16Bit (crc16Bit
    (r ^^^ (b.setWidth 16 <<< 8)))))))))

/-- The CRC-16 of R197 over a run of bytes. -/
def crc16 (bytes : List Byte) : BitVec 16 := bytes.foldl crc16Byte 0xFFFF

/-- One bit of the reflected CRC-32 of R21. -/
def crc32Bit (r : BitVec 32) : BitVec 32 := if r.getLsbD 0 then (r >>> 1) ^^^ 0xEDB88320 else r >>> 1

/-- One byte into the CRC-32 of R21, least significant bit first. -/
def crc32Byte (r : BitVec 32) (b : Byte) : BitVec 32 :=
  crc32Bit (crc32Bit (crc32Bit (crc32Bit (crc32Bit (crc32Bit (crc32Bit (crc32Bit (r ^^^ b.setWidth 32))))))))

/-- The CRC-32 register of R21 after a run of bytes. -/
def crc32Feed (r : BitVec 32) (bytes : List Byte) : BitVec 32 := bytes.foldl crc32Byte r

/-- The value of the CRC-32 register of R21 at the start. -/
def crc32Start : BitVec 32 := 0xFFFFFFFF

/-- The figure of R21 from the final register. -/
def crc32Final (r : BitVec 32) : BitVec 32 := r ^^^ 0xFFFFFFFF

/-- The coefficients of codes 0 to 76 (R116). -/
def coefTable : List Nat :=
  [
   0, 109, 115, 122, 130, 137, 145, 154, 163, 173, 183,
   194, 205, 217, 230, 244, 258, 274, 290, 307, 325, 345,
   365, 387, 410, 434, 460, 487, 516, 546, 579, 613, 649,
   688, 728, 772, 817, 866, 917, 971, 1029, 1090, 1154, 1223,
   1295, 1372, 1453, 1539, 1631, 1727, 1830, 1938, 2053, 2175, 2303,
   2440, 2584, 2738, 2900, 3072, 3254, 3446, 3651, 3867, 4096, 4339,
   4596, 4868, 5157, 5462, 5786, 6129, 6492, 6876, 7284, 7715, 8173]

/-- The coefficient of a code (R116). -/
def coefOf (code : Nat) : Nat := coefTable.getD code 0

/-- The 12-bit rounding of a wide value (R109). -/
def round12 (x : Int) : Int := (x + 2048) / 4096

/-- The clamp of a group bus value (R120). -/
def clampBus (x : Int) : Int := clampInt (-131072) 131071 x

/-- The limit of an output sample (R122). -/
def limit16 (x : Int) : Int := clampInt (-32768) 32767 x

/-- A signed value as a sample. -/
def toSample (x : Int) : Sample := BitVec.ofInt 16 x

/-- The magnitude of a sample for the envelope: −32768 is taken as 32767 (R124). -/
def magnitude (x : Int) : Nat := min x.natAbs 32767

/-- The probe tone of R186, entry k mod 16. -/
def toneTable : List Int :=
  [0, 3965, 7327, 9573, 10362, 9573, 7327, 3965, 0, -3965, -7327, -9573, -10362, -9573, -7327, -3965]

/-- The tone sample on the k-th frame of TONE_ON (R186). -/
def toneSample (k : Nat) : Int := toneTable.getD (k % 16) 0

end Sys2Proof.Machine
end

