-- ==== Sys2Proof/Machine/Flags.lean ====
section
/-! DEFINITION. The flags the blocks raise: conditions with cause and latch (R204), their owners' causes (R107, R132, R156,
R162, R178), the used counts they follow, and the result codes' numbers (R200, R203). -/

namespace Sys2Proof.Machine

open Sys2Proof

/-- The store's used count: the sum of the lengths of all mix lists (R91). -/
def MX.used (m : MX) : Nat := (m.lists.toList.map List.length).sum

/-- The journal's used count (R146). -/
def CU.used (c : CU) : Nat := c.journal.length

/-- The journal's free count (R146). -/
def CU.free (c : CU) : Nat := 1024 - c.used

/-- The number of open taps. -/
def CU.openTaps (c : CU) : Nat := c.taps.toList.countP Option.isSome

/-- The claimed count: the open taps, and 2 while a positive answer is held (R148). -/
def CU.claimed (c : CU) : Nat :=
  c.openTaps + match c.answer with
    | some (.positive _ _ _) => 2
    | some .noRecorder | some .journalFull | none => 0

/-- A notice handed to CP by the event being taken, queued after the event's reply (R173, R199). -/
def Part.note (p : Part) (n : Notice) : Part := { p with outbox := p.outbox ++ [n] }

/-- An event handed to another block, which has not yet taken it (R47). -/
def Part.raise (p : Part) (e : Instr) : Part := { p with events := p.events ++ [e] }

/-- An owner hands CP a condition's cause: one that becomes present while the latch is clear sets the latch and sends
CONDITION (R204), after the reply of the command that brought it (DEDUCED, log 37). -/
def Part.setCause (p : Part) (n : Nat) (b : Bool) : Part :=
  let c := vget p.conds n {}
  if b && !c.cause && !c.latch then
    { p with conds := vset p.conds n { cause := true, latch := true } }.note (.condition n)
  else { p with conds := vset p.conds n { c with cause := b } }

/-- Condition numbers (R204). -/
def condRecorderLost : Nat := 8
def condCueUnderrun (player : Nat) : Nat := 9 + player
def condJournalHigh : Nat := 17
def condMixHigh : Nat := 18

/-- The causes as the owners' states give them (R107, R132, R156, R162, R178). -/
def Part.ownerCause (p : Part) (n : Nat) : Bool :=
  if n < 4 then (vget p.au.highways n {}).state == .lost
  else if n < 8 then (vget p.au.highways (n - 4) {}).state == .slipping
  else if n = 8 then !p.cu.recorderReady
  else if n < 17 then (vget p.cue.players (n - 9) {}).playing && (vget p.cue.players (n - 9) {}).underrun
  else if n = 17 then decide (896 ≤ p.cu.used)
  else decide (2900 ≤ p.mx.used)

/-- MX judges the MIX_HIGH cause again (R107). -/
def Part.judgeMixHigh (p : Part) : Part := p.setCause condMixHigh (decide (2900 ≤ p.mx.used))

/-- CU judges the JOURNAL_HIGH cause again (R162). -/
def Part.judgeJournalHigh (p : Part) : Part := p.setCause condJournalHigh (decide (896 ≤ p.cu.used))

/-- CUE hands CP a player's CUE_UNDERRUN cause (R132). -/
def Part.judgeUnderrun (p : Part) (k : Nat) : Part :=
  let q := vget p.cue.players k {}
  p.setCause (condCueUnderrun k) (q.playing && q.underrun)

/-- AU hands CP the HIGHWAY_LOST and HIGHWAY_SLIP causes of a highway (R178, R180). -/
def Part.judgeHighway (p : Part) (h : Nat) : Part :=
  let s := (vget p.au.highways h {}).state
  (p.setCause (4 + h) (s == .slipping)).setCause h (s == .lost)

/-- The result byte of a reply: its place in the list of R200. -/
def Result.code : Result → Nat
  | .ok => 0 | .accepted => 1 | .badFormat => 2 | .unknownKind => 3 | .badValue => 4 | .guarded => 5 | .locked => 6
  | .wrongState => 7 | .busy => 8 | .positionOff => 9 | .notAppearing => 10 | .outOfService => 11 | .duplicate => 12
  | .deviceFull => 13 | .lineFull => 14 | .lineShared => 15 | .privateLine => 16 | .notOccupant => 17 | .notMember => 18
  | .deviceBusy => 19 | .groupFull => 20 | .mixFull => 21 | .noRecorder => 22 | .journalFull => 23 | .scheduleFull => 24
  | .tooLate => 25 | .notFound => 26 | .window => 27 | .opsFull => 28 | .referenced => 29 | .unsettled => 30

/-- A result that is not OK, ACCEPTED or UNSETTLED is a refusal (R4, R200). -/
def Result.refusal (r : Result) : Bool := !(r == .ok || r == .accepted || r == .unsettled)

/-- OP_DONE's own result byte (R203). -/
def OpResult.code : OpResult → Nat
  | .ok _ => 0 | .disturbed => 1 | .pass _ _ => 2 | .fail _ _ => 3 | .aborted => 4

/-- The kind byte of a notice (R201). -/
def Notice.kind : Notice → Byte
  | .ready .. => 0x60 | .lineState .. => 0x61 | .lead .. => 0x62 | .ringBurst .. => 0x63 | .holdRecall .. => 0x64
  | .activity .. => 0x65 | .talk .. => 0x66 | .actionDone .. => 0x67 | .opDone .. => 0x68 | .condition .. => 0x69
  | .fault .. => 0x6A

end Sys2Proof.Machine
end

