-- ==== Sys2Proof/Machine/Operands.lean ====
section
/-! DEFINITION. The operands of the commands: enumerated choices by their place in the listed order (R21, R200), clamped
quantities (R4, R200), and the length checks CP makes on lists (R199 check 3). -/

namespace Sys2Proof.Machine

open Sys2Proof

/-- RINGDOWN 0, MANUAL 1, HOOT 2 (R5). -/
def lineKindOf : Nat → Option LineKind
  | 0 => some .ringdown | 1 => some .manual | 2 => some .hoot | _ => none

/-- NONE 0, BEST_EFFORT 1, REQUIRED 2 (R5). -/
def policyOf : Nat → Option Policy
  | 0 => some .none | 1 => some .bestEffort | 2 => some .required | _ => none

/-- NORMAL 0, INVERTED 1 (R5). -/
def senseOf : Nat → Option Sense
  | 0 => some .normal | 1 => some .inverted | _ => none

/-- NONE 0, RISE 1, FALL 2, BOTH 3 (R5). -/
def edgeOf : Nat → Option EdgeReport
  | 0 => some .none | 1 => some .rise | 2 => some .fall | 3 => some .both | _ => none

/-- HA 0, HB 1 (R1). -/
def handsetOf : Nat → Option Dev
  | 0 => some .ha | 1 => some .hb | _ => none

/-- HA 0, HB 1, SK 2 (R1). -/
def deviceOf : Nat → Option Dev
  | 0 => some .ha | 1 => some .hb | 2 => some .sk | _ => none

/-- SL 0, SR 1. -/
def sideOf : Nat → Option Side
  | 0 => some .sl | 1 => some .sr | _ => none

/-- off 0, on 1 (R21). -/
def onOffOf : Nat → Option Bool
  | 0 => some false | 1 => some true | _ => none

/-- OPEN 0, GUARDED 1, LOCKED 2 (R18). -/
def levelOf : Nat → Option Level
  | 0 => some .opened | 1 => some .guarded | 2 => some .locked | _ => none

/-- A cue player 0 to 7 or none (R5, R100). -/
def cueChoiceOk : Option Nat → Bool
  | none => true
  | some k => decide (k < 8)

/-- A gain code, clamped to 76 (R10, R14, R16, R17). -/
def clampCode (n : Nat) : Nat := clampNat 76 n

/-- A trim, clamped to −24..+12 (R10). -/
def clampTrim (t : Int) : Int := clampInt (-24) 12 t

/-- A debounce time: 0 is clamped to 1 ms (R5); 255 is the most the field carries. -/
def clampDebounce (n : Nat) : Nat := max 1 (min n 255)

/-- A probe window: 0 asks for 1600 frames, any other is clamped to 800..16000 (R185). -/
def clampProbe (n : Nat) : Nat := if n = 0 then 1600 else max 800 (min n 16000)

/-- A write window, clamped to 1..63 (R139). -/
def clampWindow (n : Nat) : Nat := max 1 (min n 63)

/-- A fetch count, clamped to 1..8 (R159). -/
def clampFetch (n : Nat) : Nat := max 1 (min n 8)

/-- How many arguments an action takes, by its number in R169's table; none for a number outside it. -/
def actionArity : Nat → Option Nat
  | 0 => some 3 | 1 => some 1 | 2 => some 3 | 3 => some 3 | 4 => some 2 | 5 => some 3 | 6 => some 1 | _ => none

/-- CP's check that a list of varying length agrees with its count and its bound (R16, R133, R170, R199). -/
def formatOk : Instr → Bool
  | .defineGroup _ _ members _ _ => decide (members.length ≤ 16)
  | .cueLoad _ _ _ _ count samples => decide (samples.length = 32 * count ∧ samples.length ≤ 96)
  | .schedule _ _ action args => match actionArity action with
    | some k => decide (args.length = k)
    | none => true
  | _ => true

end Sys2Proof.Machine
end

