-- ==== Sys2Proof/Machine/Ops.lean ====
section
/-! DEFINITION. The shared operations: access to the tables, op slots (R203), the queues and the transmitter (R199 to R203),
and the two shapes of a step, a host command with its reply (`hostRun`) and an event (`eventRun`). -/

namespace Sys2Proof.Machine

open Sys2Proof

/-! ### Access to the tables -/

def Part.port (p : Part) (n : Nat) : Port := vget p.ports n {}
def Part.line (p : Part) (n : Nat) : Line := vget p.cc.lines n {}
def Part.position (p : Part) (n : Nat) : Position := vget p.cc.positions n {}
def Part.slot (p : Part) (pos k : Nat) : Slot := vget p.cc.slots (12 * pos + k) {}
def Part.group (p : Part) (g : Nat) : Group := vget p.cc.groups g {}
def Part.guardOf (p : Part) (cls : Nat) : Level := vget p.cc.guards cls .opened
def Part.mixList (p : Part) (o : Nat) : List Entry := vget p.mx.lists o []
def Part.mixPos (p : Part) (n : Nat) : MixPosition := vget p.mx.positions n {}
def Part.busTalkers (p : Part) (g : Nat) : List BusTalker := vget p.mx.talkers g []
def Part.player (p : Part) (k : Nat) : Player := vget p.cue.players k {}
def Part.highway (p : Part) (h : Nat) : Highway := vget p.au.highways h {}

def Part.setPort (p : Part) (n : Nat) (x : Port) : Part := { p with ports := vset p.ports n x }
def Part.setLine (p : Part) (n : Nat) (x : Line) : Part :=
  { p with cc := { p.cc with lines := vset p.cc.lines n x } }
def Part.setPosition (p : Part) (n : Nat) (x : Position) : Part :=
  { p with cc := { p.cc with positions := vset p.cc.positions n x } }
def Part.setSlot (p : Part) (pos k : Nat) (x : Slot) : Part :=
  { p with cc := { p.cc with slots := vset p.cc.slots (12 * pos + k) x } }
def Part.setGroup (p : Part) (g : Nat) (x : Group) : Part :=
  { p with cc := { p.cc with groups := vset p.cc.groups g x } }
def Part.setMixPos (p : Part) (n : Nat) (x : MixPosition) : Part :=
  { p with mx := { p.mx with positions := vset p.mx.positions n x } }
def Part.setPlayer (p : Part) (k : Nat) (x : Player) : Part :=
  { p with cue := { p.cue with players := vset p.cue.players k x } }
def Part.setHighway (p : Part) (h : Nat) (x : Highway) : Part :=
  { p with au := { p.au with highways := vset p.au.highways h x } }

/-- The line highway of a line (00_scope.md section 3.3). -/
def hwOf (line : Nat) : Nat := line / 48

/-! ### Op slots -/

/-- The lowest-numbered free op slot (R203). -/
def Part.freeOp? (p : Part) : Option Nat := (List.range 4).find? fun i => (vget p.ops i none).isNone

/-- A long operation takes a free op slot with its tag and no result (R203). -/
def Part.takeOp (p : Part) (i tag : Nat) (op : OpKind) : Part :=
  { p with ops := vset p.ops i (some { tag := tag, op := op, result := none }) }

/-- The op slot of an operation that is running. -/
def Part.runningOp? (p : Part) (op : OpKind) : Option Nat :=
  (List.range 4).find? fun i => match vget p.ops i none with
    | some s => s.op == op && s.result.isNone
    | none => false

/-- The block running an operation places its result in the slot (R203). -/
def Part.placeResult (p : Part) (op : OpKind) (r : OpResult) : Part :=
  match p.runningOp? op with
  | none => p
  | some i => match vget p.ops i none with
    | none => p
    | some s => { p with ops := vset p.ops i (some { s with result := some r }), opsDone := p.opsDone ++ [i] }

/-- A provisioning write taken while a digest runs ends it DISTURBED (R23). -/
def Part.disturb (p : Part) : Part :=
  match p.cc.digest with
  | none => p
  | some _ =>
    let q := p.placeResult .digest .disturbed
    { q with cc := { q.cc with digest := none } }

/-! ### Queues and transmitter -/

/-- When it is idle, the transmitter takes the oldest reply, otherwise the oldest notice (R202); it sends nothing while the
part is restarting, nor before READY after power-on (R202). -/
def Link.pump (l : Link) : Link :=
  if l.tx.isSome || l.phase.silent then l
  else match l.replies with
    | { tag := t, kind := k, answer := some (r, i) } :: rest => { l with replies := rest, tx := some (.reply t k r i) }
    | _ => match l.notices with
      | n :: rest => { l with notices := rest, tx := some (.notice n) }
      | [] => l

/-- A notice handed to CP takes the serial; it is queued, or dropped with notices-lost set while 64 are queued (R201). -/
def Link.queueNotice (time : Nat) (l : Link) (n : Notice) : Link :=
  let l' := { l with serial := (l.serial + 1) % 256 }
  if 64 ≤ l.notices.length then { l' with noticesLost := true }
  else Link.pump { l' with notices := l.notices ++ [{ serial := l.serial, time := time, body := n }] }

/-- CP answers a frame that goes no further, in the place it has just held for it (R199). -/
def Link.replyAtOnce (l : Link) (tag : Nat) (kind : ReplyKind) (r : Result) (i : Info) : Link :=
  Link.pump { l with replies := l.replies ++ [{ tag := tag, kind := kind, answer := some (r, i) }] }

/-- CP holds a place for a command it takes (R199). -/
def Link.holdPlace (l : Link) (tag : Nat) (kind : ReplyKind) : Link :=
  { l with replies := l.replies ++ [{ tag := tag, kind := kind, answer := none }] }

/-- The first place held for a command gets its answer: an owner takes its commands in the order CP took them, so this is the
command's own place (R199). -/
def answerPlace (tag : Nat) (kind : ReplyKind) (a : Result × Info) : List Place → List Place
  | [] => []
  | p :: rest =>
    if p.tag = tag ∧ p.kind = kind ∧ p.answer = none then { p with answer := some a } :: rest
    else p :: answerPlace tag kind a rest

/-- CP places a reply in the place held for its command (R199). -/
def Link.answer (l : Link) (tag : Nat) (kind : ReplyKind) (r : Result) (i : Info) : Link :=
  Link.pump { l with replies := answerPlace tag kind (r, i) l.replies }

/-- The notices of the event go to CP in order (R201). -/
def State.sendNotices (s : State) (ns : List Notice) : State :=
  { s with link := ns.foldl (Link.queueNotice s.part.tu.floorTime) s.link }

/-- The notices that go ahead of the event's reply. -/
def State.flushEarly (s : State) : State :=
  { s.sendNotices s.part.early with part := { s.part with early := [] } }

/-- The notices that follow the event's reply. -/
def State.flushOutbox (s : State) : State :=
  { s.sendNotices s.part.outbox with part := { s.part with outbox := [] } }

/-- The result of the first waiting op slot is queued as its OP_DONE while the queue has room, and the slot is freed (R203).
-/
def State.flushOp (s : State) : State :=
  match s.part.opsDone with
  | [] => s
  | i :: rest =>
    if 64 ≤ s.link.notices.length then s
    else
      let part := { s.part with ops := vset s.part.ops i none, opsDone := rest }
      match vget s.part.ops i none with
      | some { tag := t, op := op, result := some r } =>
        { s with part := part, link := s.link.queueNotice s.part.tu.floorTime (.opDone t op r) }
      | some { tag := _, op := _, result := none } | none => { s with part := { s.part with opsDone := rest } }

/-- Every waiting op slot tries once, in order (R203). -/
def State.flushOps (s : State) : State := s.flushOp.flushOp.flushOp.flushOp

/-- The end of an event: its notices go to CP, then the results placed (R203). -/
def State.finish (s : State) : State := s.flushEarly.flushOutbox.flushOps

/-! ### The two shapes of a step -/

/-- What an owner makes of a command: the blocks after it, the result code, and what the reply carries. -/
structure Answered where
  part   : Part
  result : Result
  info   : Info := .none

/-- A refusal changes nothing (R4). -/
def Part.refuse (p : Part) (r : Result) : Answered := { part := p, result := r }

/-- OK with nothing more in the reply. -/
def Part.accept (p : Part) : Answered := { part := p, result := .ok }

/-- CP queues the reply in the held place, between the event's own notices and ahead of the results it placed (R199, R203). -/
def State.conclude (s : State) (tag : Nat) (cmd : Cmd) (a : Answered) (after : Link → Link) : State :=
  let s1 := State.flushEarly { s with part := a.part }
  let s2 := { s1 with link := (after s1.link).answer tag (.cmd cmd) a.result a.info }
  s2.flushOutbox.flushOps

/-- The owner takes a command, CP queues its reply in the held place, then the event's notices and results (R199, R203). -/
def State.runOwner (s : State) (tag : Nat) (cmd : Cmd) (body : Link → Part → Answered) (after : Link → Link) : State :=
  s.conclude tag cmd (body s.link s.part) after

/-- A command of the same owner is handed over and not yet taken. -/
def ownerWaiting (b : Block) (events : List Instr) : Bool :=
  events.any fun e => match e.host? with
    | some (_, c) => c.owner == b
    | none => false

/-- A host command reaches its owner (R199). One that a frame has handed over is taken when no command handed to its owner
before it still waits. Otherwise the row is the whole arrival: CP needs a free reply place, checks tag and length, and hands
the command over, and the owner takes it at once unless an earlier one of its own waits; a RESTART is CP's own and is taken
with its frame (R206). In a break, while a RESTART is taken or under way, and before READY, no frame arrives
(R198, R206, R207). -/
def hostRun (c : Instr) (body : Link → Part → Answered) (after : Link → Link) (s : State) : State :=
  match c.host? with
  | none => s
  | some (tag, cmd) =>
    if c ∈ s.part.events then
      if ownerWaiting cmd.owner (s.part.events.takeWhile (· != c)) then s
      else State.runOwner { s with part := { s.part with events := s.part.events.erase c } } tag cmd body after
    else if s.link.phase ≠ .running ∨ s.link.inBreak then s
    else if 8 ≤ s.link.replies.length then
      { s with link := { s.link with overruns := min 65535 (s.link.overruns + 1) } }
    else
      let s1 := { s with link := s.link.holdPlace tag (.cmd cmd) }
      if tag = 0 ∨ formatOk c = false then { s with link := s.link.replyAtOnce tag (.cmd cmd) .badFormat .none }
      else if cmd ≠ .restart ∧ ownerWaiting cmd.owner s.part.events then { s1 with part := s1.part.raise c }
      else s1.runOwner tag cmd body after

/-- A host command whose taking changes nothing of the link but its reply and notices. -/
def commandRun (c : Instr) (body : Part → Answered) (s : State) : State := hostRun c (fun _ p => body p) id s

/-- An event is taken: one waiting instance of it, if there is one, is used up. -/
def eventRun (c : Instr) (body : Part → Part) (s : State) : State :=
  State.finish { s with part := body { s.part with events := s.part.events.erase c } }

end Sys2Proof.Machine
end

