-- ==== Sys2Proof/Machine/Mix.lean ====
section
/-! DEFINITION. From connections to mixes: the derivation of every output's list (R93 to R100), the fit of an edit and its
application (R101 to R104), and what CC hands MX beside the lists (R88, R93, R110). -/

namespace Sys2Proof.Machine

open Sys2Proof

/-! ### Numbers of sources and outputs -/

/-- 0 HA, 1 HB, 2 SK (R1). -/
def Dev.num : Dev → Nat
  | .ha => 0 | .hb => 1 | .sk => 2

/-- The microphone source of a device (R1). -/
def micSource (pos : Nat) (d : Dev) : Nat := 192 + 3 * pos + d.num

/-- The source of a group bus (R1). -/
def groupSource (g : Nat) : Nat := 264 + g

/-- The source of a cue player (R1). -/
def cueSource (k : Nat) : Nat := 296 + k

/-- The earpiece output of a handset (R2). -/
def earOutput (pos : Nat) : Dev → Nat
  | .ha => 4 * pos | .hb => 4 * pos + 1 | .sk => 4 * pos + 1

/-- 2 SL, 3 SR: the output number within a position (R2). -/
def Side.num : Side → Nat
  | .sl => 2 | .sr => 3

/-- A speaker output (R2). -/
def sideOutput (pos : Nat) (s : Side) : Nat := 4 * pos + s.num

/-- A line send (R2). -/
def sendOutput (line : Nat) : Nat := 96 + line

/-- A recorder channel (R2). -/
def recOutput (channel : Nat) : Nat := 288 + channel

/-! ### Contributions and merging -/

/-- One contribution to an output, or one merged entry of a derived list. -/
structure Want where
  source    : Nat
  code      : Nat
  essential : Bool
  duckable  : Bool
  deriving DecidableEq, Repr

/-- Two contributions of one source merge: the higher code, ESSENTIAL if either is, duckable only if both are (R99). -/
def mergeWant (a b : Want) : Want :=
  { source := a.source, code := max a.code b.code, essential := a.essential || b.essential,
    duckable := a.duckable && b.duckable }

/-- A contribution joins a list kept in ascending source order (R91, R99). -/
def addWant (w : Want) : List Want → List Want
  | [] => [w]
  | x :: rest =>
    if w.source < x.source then w :: x :: rest
    else if w.source = x.source then mergeWant x w :: rest
    else x :: addWant w rest

/-- The merged list of some contributions (R99). -/
def mergeWants (ws : List Want) : List Want := ws.foldl (fun l w => addWant w l) []

/-- An ESSENTIAL contribution that does not duck. -/
def want (source code : Nat) : Want := { source := source, code := code, essential := true, duckable := false }

/-- An OPTIONAL contribution at code 64 (R96, R97). -/
def wantCue (source : Nat) : Want := { source := source, code := 64, essential := false, duckable := false }

/-! ### Derivation -/

/-- The lines a handset device occupies, in join order (R43). -/
def Position.linesOf (q : Position) : Dev → List Nat
  | .ha => q.linesA | .hb => q.linesB | .sk => []

/-- The mic code of a device (R10). -/
def Position.micOf (q : Position) : Dev → Nat
  | .ha => q.micA | .hb => q.micB | .sk => q.micS

/-- The receive code of a handset (R10). -/
def Position.rxOf (q : Position) : Dev → Nat
  | .ha => q.rxA | .hb => q.rxB | .sk => q.rxB

/-- The sidetone code of a handset (R10). -/
def Position.sideOf (q : Position) : Dev → Nat
  | .ha => q.sideA | .hb => q.sideB | .sk => q.sideB

/-- The cue routes of an output (R100). -/
def routeWants (p : Part) (out : Nat) : List Want :=
  p.cc.routes.toList.filterMap fun r => match r with
    | some r => if r.output = out then some (want (cueSource r.player) r.code) else none
    | none => none

/-- The earpiece of a handset (R94). -/
def earWants (p : Part) (pos : Nat) (d : Dev) : List Want :=
  let q := p.position pos
  (q.linesOf d).map (fun l => want l (q.rxOf d))
    ++ (if q.sideOf d = 0 then [] else [want (micSource pos d) (q.sideOf d)])
    ++ routeWants p (earOutput pos d)

/-- The source a slot's target stands for (R71). -/
def Target.source? : Target → Option Nat
  | .none => Option.none
  | .hoot l => some l
  | .group g => some (groupSource g)

/-- The listening slots of a position: listen on, a target, the position enabled (R71). -/
def listeningSlots (p : Part) (pos : Nat) : List (Slot × Nat) :=
  if (p.position pos).enabled then
    (List.range 12).filterMap fun k =>
      let s := p.slot pos k
      if s.listen then s.target.source?.map fun src => (s, src) else none
  else []

/-- The ring cue entries of a position (R96). -/
def ringWants (p : Part) (pos : Nat) : List Want :=
  if (p.position pos).audible then
    p.cc.lines.toList.filterMap fun l =>
      if l.state = .ringingIn ∧ l.prov.appear.getLsbD pos then l.prov.ringCue.map fun k => wantCue (cueSource k) else none
  else []

/-- The recall cue entries of a position (R96). -/
def recallWants (p : Part) (pos : Nat) : List Want :=
  p.cc.lines.toList.filterMap fun l =>
    if l.state = .held ∧ l.recallExpired = some true ∧ l.holdOwner = some pos then l.prov.ringCue.map fun k => wantCue (cueSource k)
    else none

/-- A speaker output (R95, R96, R100). -/
def sideWants (p : Part) (pos : Nat) (side : Side) : List Want :=
  ((listeningSlots p pos).filter fun x => x.1.side = side).map (fun x =>
      { source := x.2, code := x.1.gain, essential := true, duckable := !x.1.priority })
    ++ (if (p.position pos).ringOut = side then ringWants p pos ++ recallWants p pos else [])
    ++ routeWants p (sideOutput pos side)

/-- The send of a line (R97). -/
def sendWants (p : Part) (n : Nat) : List Want :=
  let l := p.line n
  match l.state with
  | .calling | .connected | .clearing | .opened =>
    l.occupants.flatMap fun o =>
      want (micSource o.1 o.2) ((p.position o.1).micOf o.2)
        :: (((p.position o.1).linesOf o.2).filter (· ≠ n)).map fun m => want m 64
  | .held => match l.prov.holdCue with
    | some k => [wantCue (cueSource k)]
    | none => []
  | .unprovisioned | .idle | .ringingIn | .probing | .outOfService => []

/-- The device a recorder channel records: its tap's, or the one a held answer names it for (R98). -/
def channelDevice (p : Part) (c : Nat) : Option Occupant :=
  match vget p.cu.taps c none with
  | some t => some (t.position, t.device)
  | none => match p.cu.answer with
    | some (.positive ch pos d) => if ch = c then some (pos, d) else none
    | some .noRecorder | some .journalFull | none => none

/-- A recorder channel: what the device hears of its lines, and its microphone, while it occupies a line (R98). -/
def recWants (p : Part) (c : Nat) : List Want :=
  match channelDevice p c with
  | none => []
  | some (pos, d) =>
    let q := p.position pos
    if (q.linesOf d).isEmpty then []
    else (q.linesOf d).map (fun l => want l (q.rxOf d)) ++ [want (micSource pos d) (q.micOf d)]

/-- The derived list of an output: empty for the outputs of a disabled position (R12, R93). -/
def derive (p : Part) (out : Nat) : List Want :=
  mergeWants <|
    if out < 96 then
      let pos := out / 4
      if (p.position pos).enabled then
        match out % 4 with
        | 0 => earWants p pos .ha
        | 1 => earWants p pos .hb
        | 2 => sideWants p pos .sl
        | _ => sideWants p pos .sr
      else []
    else if out < 288 then sendWants p (out - 96)
    else recWants p (out - 288)

/-! ### Edits -/

/-- An edit: derived lists by output, ascending. -/
abbrev Edit := List (Nat × List Want)

/-- The edit of some outputs: each once, ascending, with its derived list (R93). -/
def editOf (p : Part) (outs : List Nat) : Edit :=
  ((List.range 320).filter (· ∈ outs)).map fun o => (o, derive p o)

/-- The ESSENTIAL entries of a derived list. -/
def essentials (ws : List Want) : List Want := ws.filter (·.essential)

/-- The OPTIONAL entries of a derived list. -/
def optionals (ws : List Want) : List Want := ws.filter fun w => !w.essential

/-- The standing count: the entries of outputs the edit does not name (R102). -/
def standing (m : MX) (e : Edit) : Nat := m.used - (e.map fun x => (vget m.lists x.1 []).length).sum

/-- The edit fits (R102). -/
def editFits (m : MX) (e : Edit) : Bool :=
  e.all (fun x => decide ((essentials x.2).length ≤ 16))
    && decide (standing m e + (e.map fun x => (essentials x.2).length).sum ≤ 3072)

/-- The stored entry that a derived source keeps: present and not poisoned (R101 steps 1 and 3). -/
def keptEntry? (stored : List Entry) (w : Want) : Option Entry :=
  stored.find? fun e => e.source = w.source ∧ e.poisoned = false

/-- A kept entry with its derived code, class and duckable flag (R101 step 3). -/
def keepEntry (e : Entry) (w : Want) : Entry :=
  { e with code := w.code, essential := w.essential, duckable := w.duckable }

/-- The free word a new entry is placed in: a free value picks among the words no entry holds (log 3). -/
def pickWord (n : Nat) (taken : List Nat) : Nat :=
  let free := (List.range 3072).filter (· ∉ taken)
  free.getD (Config.mixPlace n % free.length) 0

/-- A new entry: applied coefficient 0 (R101 step 4), and until its first frame the target of its base code, which
R101, R106 and R116 leave open (DESIGN CHOICE, log 28). -/
def newEntry (word : Nat) (w : Want) : Entry :=
  { index := word, source := w.source, code := w.code, essential := w.essential, duckable := w.duckable,
    target := coefOf w.code }

/-- The OPTIONAL candidates of an edit in the order of R103's two passes: those that stood before the edit, then the rest,
each pass ascending by output and source. A poisoned entry counts as one that stood, under the source it held, where R91, R101
and R103 leave that open (DESIGN CHOICE, log 43). -/
def optionalOrder (m : MX) (e : Edit) : List (Nat × Want) :=
  let all := e.flatMap fun x => (optionals x.2).map fun w => (x.1, w)
  let stood := fun (x : Nat × Want) => (vget m.lists x.1 []).any fun s => s.source == x.2.source
  all.filter stood ++ all.filter fun x => !stood x

/-- How many ESSENTIAL entries the edit derives for an output. -/
def essentialCount (e : Edit) (out : Nat) : Nat :=
  (e.map fun x => if x.1 = out then (essentials x.2).length else 0).sum

/-- The OPTIONAL entries that are placed: each if its list then holds fewer than 16 and the store fewer than 3072 (R103). -/
def admitted (m : MX) (e : Edit) : List (Nat × Want) :=
  let base := standing m e + (e.map fun x => (essentials x.2).length).sum
  (optionalOrder m e).foldl (fun acc x =>
    if essentialCount e x.1 + acc.countP (fun y => y.1 == x.1) < 16 ∧ base + acc.length < 3072 then acc ++ [x] else acc) []

/-- The entries an output holds after the edit: its ESSENTIAL ones and the OPTIONAL ones placed, ascending by source. -/
def finalWants (placed : List (Nat × Want)) (out : Nat) (ws : List Want) : List Want :=
  ws.filter fun w => w.essential || placed.contains (out, w)

/-- The new list of one output: a source kept keeps its entry, a new one takes a free word (R101 steps 3, 4). `n` counts
placements, `taken` lists the words held. -/
def placeList (stored : List Entry) : List Want → Nat → List Nat → List Entry × Nat × List Nat
  | [], n, taken => ([], n, taken)
  | w :: ws, n, taken =>
    match keptEntry? stored w with
    | some e =>
      let r := placeList stored ws n taken
      (keepEntry e w :: r.1, r.2)
    | none =>
      let word := pickWord n taken
      let r := placeList stored ws (n + 1) (word :: taken)
      (newEntry word w :: r.1, r.2)

/-- The lists of the named outputs are replaced one after the other. -/
def placeAll (old : Vector (List Entry) 320) : Edit → Vector (List Entry) 320 → Nat → List Nat →
    Vector (List Entry) 320 × Nat
  | [], lists, n, _ => (lists, n)
  | (out, ws) :: rest, lists, n, taken =>
    let r := placeList (vget old out []) ws n taken
    placeAll old rest (vset lists out r.1) r.2.1 r.2.2

/-- The words of the entries that no edit of `outs` touches. -/
def wordsOutside (m : MX) (outs : List Nat) : List Nat :=
  (List.range 320).flatMap fun o => if o ∈ outs then [] else (vget m.lists o []).map Entry.index

/-- An edit is applied whole (R101, R103). Every word that a named output held is written with fresh check bits, kept entry
or free word, and so is every word a new entry takes. -/
def MX.apply (m : MX) (e : Edit) : MX :=
  let placed := admitted m e
  let finals := e.map fun x => (x.1, finalWants placed x.1 x.2)
  let outs := e.map Prod.fst
  let kept := finals.flatMap fun x => x.2.filterMap fun w => (keptEntry? (vget m.lists x.1 []) w).map Entry.index
  let r := placeAll m.lists finals m.lists m.placed (wordsOutside m outs ++ kept)
  let written := outs.flatMap fun o => (vget m.lists o []).map Entry.index ++ (vget r.1 o []).map Entry.index
  { m with
    lists := r.1
    placed := r.2
    damage := m.damage.filter fun d => d.index ∉ written
    omitted := e.foldl (fun v x => vset v x.1 (decide ((finalWants placed x.1 x.2).length < x.2.length))) m.omitted }

/-- MX takes an edit or answers that it does not fit (R102); the MIX_HIGH cause is judged on the final count (R107). -/
def Part.edit? (p : Part) (outs : List Nat) : Option Part :=
  let e := editOf p outs
  if editFits p.mx e then some ({ p with mx := p.mx.apply e }.judgeMixHigh) else none

/-- An edit of an event that always fits (R104). -/
def Part.edit (p : Part) (outs : List Nat) : Part := (p.edit? outs).getD p

/-! ### What CC hands MX beside the lists -/

/-- The handset-busy mark of a position (R93). -/
def Part.handBusy (p : Part) (pos : Nat) : Part :=
  let q := p.position pos
  p.setMixPos pos { p.mixPos pos with busy := !(q.linesA.isEmpty && q.linesB.isEmpty) }

/-- The sources a position's listening priority slots target (R71, R110): a set, kept ascending. -/
def prioritySources (p : Part) (pos : Nat) : List Nat :=
  let srcs := ((listeningSlots p pos).filter fun x => x.1.priority).map Prod.snd
  (List.range 296).filter (· ∈ srcs)

/-- CC hands MX a position's priority sources (R71). -/
def Part.handPriority (p : Part) (pos : Nat) : Part :=
  p.setMixPos pos { p.mixPos pos with priority := prioritySources p pos }

/-- CC hands MX a position's trims and duck depth (R11, R13). -/
def Part.handTrims (p : Part) (pos : Nat) : Part :=
  let q := p.position pos
  p.setMixPos pos { p.mixPos pos with
    trimEA := q.trimEA, trimEB := q.trimEB, trimSL := q.trimSL, trimSR := q.trimSR, duck := q.duck }

/-- CC hands MX a group's talker list: a talker that stays keeps its coefficient, a new one begins at 0 (R88, R119). -/
def Part.handTalkers (p : Part) (g : Nat) : Part :=
  let old := p.busTalkers g
  let new := (p.group g).talkers.map fun t =>
    match old.find? fun b => b.position = t.position with
    | some b => b
    | none => { position := t.position, coef := 0 }
  { p with mx := { p.mx with talkers := vset p.mx.talkers g new } }

/-! ### Which outputs an event derives (R93) -/

/-- The channel of a device's tap, or the one a held answer names for it. -/
def tapChannel? (p : Part) (pos : Nat) (d : Dev) : Option Nat :=
  (List.range 32).find? fun c => match vget p.cu.taps c none with
    | some t => t.position == pos && t.device == d
    | none => false

/-- The recorder channel that records a device, as an output list. -/
def recorderOuts (p : Part) (pos : Nat) (d : Dev) : List Nat :=
  (List.range 32).filterMap fun c => if channelDevice p c = some (pos, d) then some (recOutput c) else none

/-- A handset's join or leave of a line, or SK's of a hoot: the earpiece, the sends of its lines, its recorder channel, and
the send of the line (R93). -/
def occupantOuts (p : Part) (n : Nat) (o : Occupant) : List Nat :=
  match o.2 with
  | .sk => [sendOutput n]
  | .ha | .hb =>
    earOutput o.1 o.2 :: sendOutput n :: ((p.position o.1).linesOf o.2).map sendOutput ++ recorderOuts p o.1 o.2

/-- The ring outputs of the positions in an appearance set (R93). -/
def ringOuts (p : Part) (appear : BitVec 24) : List Nat :=
  ((List.range 24).filter fun pos => appear.getLsbD pos).map fun pos => sideOutput pos (p.position pos).ringOut

/-- The ring output of a hold owner. -/
def ownerOuts (p : Part) : Option Nat → List Nat
  | some pos => [sideOutput pos (p.position pos).ringOut]
  | none => []

/-- What a change of a line's own state derives: entering or leaving RINGING_IN or HELD (R93). -/
def stateOuts (p : Part) (n : Nat) (old new : Line) : List Nat :=
  (if (old.state == .ringingIn) != (new.state == .ringingIn) then ringOuts p old.prov.appear else [])
    ++ (if (old.state == .held) != (new.state == .held) then [sendOutput n] else [])
    ++ (if old.state = .held ∧ new.state ≠ .held ∧ old.recallExpired = some true then ownerOuts p old.holdOwner else [])

end Sys2Proof.Machine
end

