-- ==== Sys2Proof/Machine/Capture.lean ====
section
/-! DEFINITION. The Capture Unit: the journal and its space rule (R146 to R148), answers, taps and joins and leaves (R143 to
R145, R149 to R154), recorder-ready (R156), time steps (R157), and the journal commands (R158 to R161). -/

namespace Sys2Proof.Machine

open Sys2Proof

/-! ### Writing entries -/

/-- An entry goes to the end of the journal with the next sequence number and TU's floor time (R146); an entry that is no
TAP_CLOSE carries the dropped mark as its gap flag and clears it (R148). JOURNAL_HIGH is judged again (R162). -/
def Part.writeEntry (p : Part) (e : JEntry) : Part :=
  let c := p.cu
  let gap := if e.kind = .tapClose then e.gap else c.dropped
  let entry := { e with seq := c.seq, time := p.tu.floorTime, gap := gap }
  Part.judgeJournalHigh { p with cu := { c with
    journal := c.journal ++ [entry]
    seq := (c.seq + 1) % 2 ^ 32
    dropped := if e.kind = .tapClose then c.dropped else false } }

/-- The space rule: an entry other than TAP_OPEN and TAP_CLOSE is written only if the free count exceeds the claimed count
(R148). -/
def CU.roomy (c : CU) : Bool := decide (c.claimed < c.free)

/-- A journal-wide entry under the space rule; a drop sets the dropped mark (R148). -/
def Part.writeWide (p : Part) (e : JEntry) : Part :=
  if p.cu.roomy then p.writeEntry e else { p with cu := { p.cu with dropped := true } }

/-- The record of a tap changes. -/
def Part.modTap (p : Part) (c : Nat) (f : Tap → Tap) : Part :=
  { p with cu := { p.cu with taps := vmod p.cu.taps c fun t => t.map f } }

/-- An entry of one kind, its other fields absent or set by `writeEntry`. -/
def blankEntry (k : JKind) : JEntry := { seq := 0, time := 0, kind := k, gap := false }

/-- An entry of a tap (R147). -/
def tapEntry (k : JKind) (c : Nat) (t : Tap) (line : Option Nat) (close : Option CloseCause) : JEntry :=
  { seq := 0, time := 0, kind := k, gap := t.gap, channel := some c, position := some t.position, device := some t.device,
    line := line, ref := some t.ref, close := close }

/-- A LINE_JOIN or LINE_LEAVE of a tap under the space rule; a drop sets the tap's gap flag (R148). -/
def Part.writeTapLine (p : Part) (k : JKind) (c n : Nat) : Part :=
  match vget p.cu.taps c none with
  | none => p
  | some t =>
    if p.cu.roomy then p.writeEntry (tapEntry k c t (some n) none)
    else p.modTap c fun t => { t with gap := true }

/-! ### Opening a tap -/

/-- CU's answer for an untapped device (R149). -/
def CU.ask (c : CU) (pos : Nat) (d : Dev) : CUAnswer :=
  match (List.range 32).find? fun ch => (vget c.taps ch none).isNone with
  | none => .noRecorder
  | some ch => if c.free < c.claimed + 2 then .journalFull else .positive ch pos d

/-- The call reference after one is given: from 4,294,967,294 to 1 (R145). -/
def nextRef (r : Nat) : Nat := if 4294967294 ≤ r then 1 else r + 1

/-- A line joins a tap's line list, or the count of lines beyond it (R144). -/
def Tap.enter (t : Tap) (n : Nat) : Tap :=
  if n ∈ t.lines then t
  else if t.lines.length < 8 then { t with lines := t.lines ++ [n] }
  else { t with beyond := min 255 (t.beyond + 1) }

/-- A tapped device's join of a line (R152). -/
def Part.tapJoin (p : Part) (c n : Nat) : Part :=
  (p.writeTapLine .lineJoin c n).modTap c fun t => t.enter n

/-- A tap opens on the named channel, line `n` being the joining line (R150). -/
def Part.openTap (p : Part) (ch pos : Nat) (d : Dev) (n : Nat) : Part :=
  let c := p.cu
  let t : Tap := { position := pos, device := d, ref := c.callRef, openTime := p.tu.floorTime, lines := [n], beyond := 0,
                   gap := false }
  let p1 := { p with cu := { c with taps := vset c.taps ch (some t), callRef := nextRef c.callRef, answer := none } }
  let p2 := p1.writeEntry (tapEntry .tapOpen ch t (some n) none)
  (((p.position pos).linesOf d).filter (· ≠ n)).foldl (fun q m => q.tapJoin ch m) p2

/-- CC reports a handset's join of a line (R150 to R152, R154); an answer held for the seize ends here. SK joins are not
reported. -/
def Part.cuJoin (p : Part) (n : Nat) (o : Occupant) : Part :=
  match o.2 with
  | .sk => p
  | .ha | .hb =>
    match tapChannel? p o.1 o.2 with
    | some c => p.tapJoin c n
    | none => match p.cu.answer with
      | some (.positive ch _ _) => p.openTap ch o.1 o.2 n
      | some .noRecorder | some .journalFull =>
        Part.writeWide { p with cu := { p.cu with answer := none } }
          { blankEntry .tapDenied with position := some o.1, device := some o.2, line := some n }
      | none => p


/-! ### Leaving -/

/-- CC reports a handset's leave of a line, after the relation and the edit (R153): LINE_LEAVE under the space rule, and
TAP_CLOSE with the close cause of the reason when the device occupies no line. -/
def Part.cuLeave (p : Part) (n : Nat) (reason : CloseCause) (o : Occupant) : Part :=
  match o.2 with
  | .sk => p
  | .ha | .hb =>
    match tapChannel? p o.1 o.2 with
    | none => p
    | some c =>
      let p1 := p.writeTapLine .lineLeave c n
      if ((p1.position o.1).linesOf o.2).isEmpty then
        match vget p1.cu.taps c none with
        | none => p1
        | some t =>
          let p2 := p1.writeEntry (tapEntry .tapClose c t none (some reason))
          { p2 with cu := { p2.cu with taps := vset p2.cu.taps c none } }
      else p1

/-- CU's first step for a leave: LINE_LEAVE under the space rule (R153 step 1). -/
def Part.cuLeaveLine (p : Part) (n : Nat) (o : Occupant) : Part :=
  match o.2 with
  | .sk => p
  | .ha | .hb => match tapChannel? p o.1 o.2 with
    | none => p
    | some c => p.writeTapLine .lineLeave c n

/-- CC reports the leaves of one event one after the other; a device that leaves several lines has its tap closed with the
last of them (R153, as R163 says of a restart; DEDUCED, log 29). -/
def cuLeaves (reason : CloseCause) : List (Nat × Occupant) → Part → Part
  | [], p => p
  | (n, o) :: rest, p =>
    cuLeaves reason rest (if rest.any fun x => x.2 == o then p.cuLeaveLine n o else p.cuLeave n reason o)

/-! ### The recorder and time steps -/

/-- AU reports RRDY to CU (R156). The entry comes before the cause, so a JOURNAL_HIGH that it brings is told ahead of
RECORDER_LOST, where R156 gives no order (DESIGN CHOICE, log 30). -/
def Part.recorderReport (p : Part) (ready : Bool) : Part :=
  if p.cu.recorderReady = ready then p
  else
    let p1 := { p with cu := { p.cu with recorderReady := ready } }
    let p2 := p1.writeWide (blankEntry (if ready then .recorderBack else .recorderLost))
    p2.setCause condRecorderLost (!ready)

/-- TU asks for a TIME_STEP entry; floor time is already the new one (R157). -/
def Part.timeStep (p : Part) (old : Nat) : Part := p.writeWide { blankEntry .timeStep with oldTime := some old }

/-! ### The 20-byte form -/

/-- The kind byte of an entry (R208). -/
def JKind.code : JKind → Nat
  | .tapOpen => 0 | .tapClose => 1 | .lineJoin => 2 | .lineLeave => 3 | .tapDenied => 4 | .recorderLost => 5
  | .recorderBack => 6 | .timeStep => 7

/-- An optional single-byte field: 0xFF when absent (R208). -/
def optByte : Option Nat → Byte
  | some n => BitVec.ofNat 8 n
  | none => 0xFF

/-- The flags byte of an entry (R208). -/
def JEntry.flags (e : JEntry) : Nat :=
  let bit := fun (b : Bool) (w : Nat) => if b then w else 0
  bit e.channel.isSome 1 + bit e.position.isSome 2 + bit e.device.isSome 4 + bit e.line.isSome 8 + bit e.ref.isSome 16
    + bit e.gap 32
    + 64 * match e.close with
      | none => 0 | some .deviceIdle => 1 | some .restart => 2 | some .lineLost => 3

/-- The 20-byte form of a journal entry (R208). A TIME_STEP carries its old time in bytes 11, 12 and 16 to 19. -/
def JEntry.bytes (e : JEntry) : List Byte :=
  bytesBE 4 e.seq ++ bytesBE 6 e.time ++ [BitVec.ofNat 8 e.kind.code] ++
    match e.oldTime with
    | some t => bytesBE 2 (t / 2 ^ 32) ++ [0xFF, 0xFF, BitVec.ofNat 8 e.flags] ++ bytesBE 4 (t % 2 ^ 32)
    | none =>
      [optByte e.channel, optByte e.position, optByte (e.device.map Dev.num), optByte e.line, BitVec.ofNat 8 e.flags] ++
        match e.ref with
        | some r => bytesBE 4 r
        | none => [0xFF, 0xFF, 0xFF, 0xFF]

/-! ### The host and the journal -/

/-- Where a sequence number lies against the held entries (R158). -/
inductive SeqPlace | held (offset : Nat) | before | after
  deriving DecidableEq, Repr

/-- The offset rule of R158; an empty journal holds nothing for a number to name. -/
def CU.locate (c : CU) (s : BitVec 32) : SeqPlace :=
  match c.journal with
  | [] => .before
  | e :: _ =>
    let offset := (s.toNat + 2 ^ 32 - e.seq) % 2 ^ 32
    if offset < c.used then .held offset else if 2147483648 ≤ offset then .before else .after

/-- The entries a JOURNAL_FETCH reports (R159). -/
def CU.fetch (c : CU) (start : BitVec 32) (count : Nat) : List JEntry :=
  match c.locate start with
  | .held k => (c.journal.drop k).take count
  | .before => c.journal.take count
  | .after => []

/-- JOURNAL_FETCH (R159). -/
def journalFetchBody (start : BitVec 32) (count : Nat) (p : Part) : Answered :=
  let es := p.cu.fetch start (clampFetch count)
  { part := p, result := .ok,
    info := .fetched { entries := es.map JEntry.bytes, count := es.length, oldest := p.cu.journal.head?.map JEntry.seq,
                       used := p.cu.used, dropped := p.cu.dropped } }

/-- How many entries a JOURNAL_RELEASE frees (R160). -/
def CU.freedBy (c : CU) (upTo : BitVec 32) : Nat :=
  match c.locate upTo with
  | .held k => k + 1
  | .before => 0
  | .after => c.used

/-- JOURNAL_RELEASE (R160). -/
def journalReleaseBody (upTo : BitVec 32) (p : Part) : Answered :=
  let k := p.cu.freedBy upTo
  let p1 := Part.judgeJournalHigh { p with cu := { p.cu with journal := p.cu.journal.drop k } }
  { part := p1, result := .ok, info := .released k (p1.cu.journal.head?.map JEntry.seq) p1.cu.used }

/-- READ_TAP (R161). -/
def readTapBody (ch : Nat) (p : Part) : Answered :=
  if 32 ≤ ch then p.refuse .badValue
  else
    { part := p, result := .ok,
      info := .tap ((vget p.cu.taps ch none).map fun t => (t, (p.position t.position).linesOf t.device)) }

def execJournalFetch (tag : Nat) (start : BitVec 32) (count : Nat) (s : State) : Host.Outcome State Fault Refusal :=
  .next (commandRun (.journalFetch tag start count) (journalFetchBody start count) s)

def execJournalRelease (tag : Nat) (upTo : BitVec 32) (s : State) : Host.Outcome State Fault Refusal :=
  .next (commandRun (.journalRelease tag upTo) (journalReleaseBody upTo) s)

def execReadTap (tag ch : Nat) (s : State) : Host.Outcome State Fault Refusal :=
  .next (commandRun (.readTap tag ch) (readTapBody ch) s)

end Sys2Proof.Machine
end

