-- ==== Sys2Proof/Machine/Lines.lean ====
section
/-! DEFINITION. What every event of a line shares: the port's side (R31, R34, R36), LINE_STATE (R44), joins and leaves on both
sides of the occupancy relation (R43), the probe's abort (R188), leaving a line (R60, R64, R68), entry to OUT_OF_SERVICE
(R60), and the check of a line record (R61, R193). -/

namespace Sys2Proof.Machine

open Sys2Proof

/-! ### The port -/

/-- The lead of line `n` before the change that a waiting event tells of: deasserted before a rise, asserted before a fall,
which a MANUAL line's burst event tells of too (R30, R32). -/
def leadBefore (n : Nat) : Instr → Option Bool
  | .riseEvent m => if m = n then some false else none
  | .fallEvent m | .burstEvent m _ => if m = n then some true else none
  | _ => none

/-- The far lead as CC reads it: LSU's debounced value, less any change whose event CC has not yet taken (R31). -/
def Part.farLead (p : Part) (n : Nat) : Bool :=
  match p.events.findSome? (leadBefore n) with
  | some v => v
  | none => (p.port n).debounced

/-- The outgoing lead that a line's kind and state call for; a MANUAL line's follows its burst (R34). -/
def leadFor (l : Line) (burst : Nat) : Bool :=
  match l.state, l.prov.kind with
  | .outOfService, _ | .unprovisioned, _ => false
  | .calling, .ringdown | .connected, .ringdown | .clearing, .ringdown | .held, .ringdown => true
  | _, .ringdown => false
  | _, .manual => decide (0 < burst)
  | _, .hoot => !l.occupants.isEmpty

/-- CC hands LSU the line's new state (R34, R36, R39): the outgoing lead; an outgoing burst is cut short outside CONNECTED;
a line out of service measures no incoming burst. -/
def Part.handPort (p : Part) (n : Nat) : Part :=
  let l := p.line n
  let q := p.port n
  let burst := if l.state = .connected then q.burst else 0
  p.setPort n { q with
    burst := burst
    outLead := leadFor l burst
    inTimer := if l.state = .outOfService ∨ l.state = .unprovisioned then none else q.inTimer
    outOfService := l.state == .outOfService }

/-! ### Notices and small changes -/

/-- LINE_STATE: the line as the event left it (R44). -/
def Part.noteLine (p : Part) (n : Nat) (cause : LineCause) : Part :=
  let l := p.line n
  p.note (.lineState n l.state cause l.occupants l.privacy l.holdOwner l.oosCause)

/-- The hold is gone: owner, deadline and recall mark (R53). -/
def Line.noHold (l : Line) : Line := { l with holdOwner := none, recallTime := none, recallExpired := none }

/-- The line goes to IDLE: privacy, hold, ring timeout and probe phase are cleared (R51, R53, R56, R67). -/
def Line.toIdle (l : Line) (lingering : Bool) : Line :=
  { l.noHold with state := .idle, occupants := [], privacy := false, lingering := lingering, ringTimeout := none,
                  probePhase := none }

/-- Every live field cleared, the state given (R7, R8, R61). -/
def Line.fresh (prov : LineProv) (st : LState) : Line := { prov := prov, state := st }

/-- The positions' side of a join: the line at the end of the device's list (R43). -/
def Position.join (q : Position) (d : Dev) (n : Nat) : Position :=
  match d with
  | .ha => { q with linesA := q.linesA ++ [n] }
  | .hb => { q with linesB := q.linesB ++ [n] }
  | .sk => q

/-- The positions' side of a leave: the entries after it close up (R43). -/
def Position.unjoin (q : Position) (d : Dev) (n : Nat) : Position :=
  match d with
  | .ha => { q with linesA := q.linesA.filter (· ≠ n) }
  | .hb => { q with linesB := q.linesB.filter (· ≠ n) }
  | .sk => q

/-- A join, both sides in one event (R43). -/
def Part.attach (p : Part) (n : Nat) (o : Occupant) : Part :=
  let p1 := p.setLine n { p.line n with occupants := (p.line n).occupants ++ [o] }
  p1.setPosition o.1 ((p1.position o.1).join o.2 n)

/-- SK's talk entry is cleared, and with it the talk state of the slot it was requested through (R77, R78). -/
def Part.clearSk (p : Part) (pos : Nat) : Part :=
  let q := p.position pos
  let p1 := match q.sk with
    | some { target := .hoot _, through := some k, talking := _ } =>
      p.setSlot pos k { p.slot pos k with talking := false }
    | some { target := .hoot _, through := none, talking := _ } | some { target := .group _, through := _, talking := _ }
    | none => p
  p1.setPosition pos { p1.position pos with sk := none }

/-- A leave, both sides in one event (R43); an SK occupant's talk ends (R60, R77, R78). -/
def Part.detach (p : Part) (n : Nat) (o : Occupant) : Part :=
  let p1 := p.setLine n { p.line n with occupants := (p.line n).occupants.filter (· ≠ o) }
  match o.2 with
  | .sk => p1.clearSk o.1
  | .ha | .hb => p1.setPosition o.1 ((p1.position o.1).unjoin o.2 n)

/-- The probe of a line is aborted: AU discards its record and the result ABORTED goes to its op slot (R188). -/
def Part.abortProbe (p : Part) (n : Nat) : Part :=
  let p1 := { p with au := { p.au with probes := p.au.probes.filter fun r => r.line ≠ n } }
  p1.placeResult (.probe n) .aborted

/-- Some occupants leave a line and its record changes, as one event (R47): relation and state, then the edit, then the busy
marks, then CU, then LSU. -/
def Part.depart (p : Part) (n : Nat) (who : List Occupant) (upd : Line → Line) (reason : CloseCause) : Part :=
  let old := p.line n
  let outs := who.flatMap (occupantOuts p n) ++ stateOuts p n old (upd old)
  let p1 := who.foldl (fun q o => q.detach n o) p
  let p2 := p1.setLine n (upd (p1.line n))
  let p3 := if outs.isEmpty then p2 else p2.edit outs
  let p4 := who.foldl (fun q o => q.handBusy o.1) p3
  let p5 := who.foldl (fun q o => q.cuLeave n reason o) p4
  p5.handPort n

/-! ### Out of service and the record's code -/

/-- A provisioned line enters OUT_OF_SERVICE (R60); `prov` is what its provisioned fields hold from then on. -/
def Part.outOfService (p : Part) (n : Nat) (cause : OosCause) (prov : LineProv) : Part :=
  let l := p.line n
  let p1 := if l.state = .probing then p.abortProbe n else p
  let p2 := p1.depart n l.occupants (fun _ => { Line.fresh prov .outOfService with oosCause := some cause }) .lineLost
  p2.noteLine n (match cause with | .highway => .highway | .memory => .memory)

/-- A double-bit error in a line's record is dealt with by the line's state, and the record is rewritten with the kind as CC
keeps it apart and the other fields as read (R61, R193). -/
def Part.memoryFault (p : Part) (n : Nat) (reads : LineProv) : Part :=
  let l := p.line n
  let prov := { reads with kind := vget p.cc.kinds n .ringdown }
  match l.state with
  | .unprovisioned => p.setLine n {}
  | .outOfService => match l.oosCause with
    | some .memory => p.setLine n { Line.fresh prov .outOfService with oosCause := some .memory }
    | some .highway | none =>
      (p.setLine n { Line.fresh prov .outOfService with oosCause := some .memory }).noteLine n .memory
  | .idle | .ringingIn | .calling | .connected | .clearing | .held | .opened | .probing => p.outOfService n .memory prov

/-- A check of a line record, by scrub or on use (R61, R193). -/
def Part.checkLine (p : Part) (n : Nat) (by_ : FoundBy) : Part :=
  match (p.line n).damage with
  | none => p
  | some (.single syn) =>
    (p.setLine n { p.line n with damage := none }).raise
      (.faultOffer { rank := .low, store := .line, index := n, syndrome := syn, foundBy := by_ })
  | some (.double syn reads) =>
    ((p.setLine n { p.line n with damage := none }).memoryFault n reads).raise
      (.faultOffer { rank := .high, store := .line, index := n, syndrome := syn, foundBy := by_ })

/-- CC reads a line record to take an event for the line: the check comes first, and what it changes is the error's own, told
ahead of the event's reply (R61). -/
def Part.useLine (p : Part) (n : Nat) : Part :=
  let p1 := p.checkLine n .use
  { p1 with early := p1.early ++ p1.outbox, outbox := [] }

end Sys2Proof.Machine
end

