-- ==== Sys2Proof/Machine/Signalling.lean ====
section
/-! DEFINITION. Line signalling: debounced changes and what they produce (R26, R29 to R33), the end of an outgoing burst
(R35), a highway's loss and return at LSU (R38), and one frame of one port (R25, R26, R32, R34). -/

namespace Sys2Proof.Machine

open Sys2Proof

/-! ### Debounced changes -/

/-- The edge report selects a direction (R29). -/
def edgeSelects : EdgeReport → Bool → Bool
  | .none, _ => false
  | .rise, v => v
  | .fall, v => !v
  | .both, _ => true

/-- A valid incoming burst (R32). -/
def burstValid (t : Nat) : Bool := decide (3200 ≤ t ∧ t ≤ 32000)

/-- What the kind makes of a debounced change (R29 step 2, R32, R33). -/
def Part.leadEvent (p : Part) (n : Nat) (v : Bool) : Part :=
  let q := p.port n
  match q.kind, v with
  | .ringdown, true => p.raise (.riseEvent n)
  | .ringdown, false => p.raise (.fallEvent n)
  | .manual, true => p.setPort n { q with inTimer := some 0 }
  | .manual, false =>
    let p1 := p.setPort n { q with inTimer := none }
    match q.inTimer with
    | some t => if burstValid t then p1.raise (.burstEvent n t) else p1
    | none => p1
  | .hoot, _ => p

/-- A debounced change: the value and the count, then the LEAD notice, then the event for CC; an unprovisioned port and one
out of service raise nothing (R26, R29, R37, R39). -/
def debouncedChangeBody (n : Nat) (v : Bool) (p : Part) : Part :=
  let q := p.port n
  if q.debounced = v then p
  else
    let p1 := p.setPort n { q with debounced := v, stable := 0 }
    if q.provisioned && !q.outOfService then
      (if edgeSelects q.edge v then p1.note (.lead n v) else p1).leadEvent n v
    else p1

/-- A change of the port that LSU has come to and not yet produced is produced before a definition of the line reaches it
(R28); its notice goes ahead of the definition's reply. -/
def Part.produceChange (p : Part) (n : Nat) : Part :=
  match p.events.find? fun e => e == .debouncedChange n true || e == .debouncedChange n false with
  | some (.debouncedChange m v) =>
    let p1 := debouncedChangeBody m v { p with events := p.events.erase (.debouncedChange m v) }
    { p1 with early := p1.early ++ p1.outbox, outbox := [] }
  | some _ | none => p

/-- DEBOUNCED_CHANGE (R26, R29). -/
def execDebouncedChange (n : Nat) (v : Bool) (s : State) : Host.Outcome State Fault Refusal :=
  .next (eventRun (.debouncedChange n v) (debouncedChangeBody n v) s)

/-! ### Outgoing bursts -/

/-- The end of an outgoing burst: the lead is deasserted from the next frame, unless a RING has started another (R35). -/
def outgoingBurstEndBody (n : Nat) (p : Part) : Part :=
  let q := p.port n
  if q.kind = .manual ∧ q.burst = 0 then p.setPort n { q with outLead := false } else p

/-- OUTGOING_BURST_END (R35). -/
def execOutgoingBurstEnd (n : Nat) (s : State) : Host.Outcome State Fault Refusal :=
  .next (eventRun (.outgoingBurstEnd n) (outgoingBurstEndBody n) s)

/-! ### Highway loss and return -/

/-- The ports of a line highway change. -/
def Part.modPorts (p : Part) (h : Nat) (f : Port → Port) : Part :=
  { p with ports := p.ports.mapIdx fun i q => if hwOf i = h then f q else q }

/-- A port of a lost highway: not sampled, burst timer idle (R38). -/
def Port.lose (q : Port) : Port := { q with sampling := false, inTimer := none }

/-- A port of a returned highway, from scratch (R38). -/
def Port.restart (q : Port) : Port :=
  { q with debounced := false, stable := 0, inTimer := none, sensed := false, sampling := true }

/-- LSU_HIGHWAY_LOSS (R38). -/
def execLsuHighwayLoss (h : Nat) (s : State) : Host.Outcome State Fault Refusal :=
  .next (eventRun (.lsuHighwayLoss h) (fun p => p.modPorts h Port.lose) s)

/-- LSU_HIGHWAY_RETURN (R38). -/
def execLsuHighwayReturn (h : Nat) (s : State) : Host.Outcome State Fault Refusal :=
  .next (eventRun (.lsuHighwayReturn h) (fun p => p.modPorts h Port.restart) s)

/-! ### One frame of one port -/

/-- The debounce time in frames (R24). -/
def Port.holdFrames (q : Port) : Nat := 16 * q.debounce

/-- The sensed bit of a raw bit (R25). -/
def Port.sense1 (q : Port) (raw : Bool) : Bool := raw != (q.sense == .inverted)

/-- The frame is the D-th on which the sensed bit differs (R26). -/
def Port.changes (q : Port) (raw : Bool) : Bool :=
  q.sampling && q.sense1 raw != q.debounced && decide (q.holdFrames ≤ q.stable + 1)

/-- The port is sending a running outgoing burst (R35). -/
def Port.bursting (q : Port) : Bool := q.kind == .manual && q.outLead && decide (0 < q.burst)

/-- One frame of a port: the outgoing bit, the burst count, the incoming timer, and sampling with debounce (R25, R26, R32,
R34, R35). A change reached is produced by its own event, which writes the debounced value. -/
def Port.frame (q : Port) (raw : Bool) : Port :=
  let q1 := { q with
    sentBit := q.outLead != (q.sense == .inverted)
    burst := if q.bursting then q.burst - 1 else q.burst
    inTimer := q.inTimer.map fun t => min 32001 (t + 1) }
  if q.sampling then
    { q1 with
      sensed := q.sense1 raw
      stable := if q.sense1 raw = q.debounced ∨ q.changes raw then 0 else q.stable + 1 }
  else q1

/-- The events of one frame of a port. -/
def Port.frameEvents (q : Port) (n : Nat) (raw : Bool) : List Instr :=
  (if q.changes raw then [.debouncedChange n (q.sense1 raw)] else [])
    ++ (if q.bursting && q.burst == 1 then [.outgoingBurstEnd n] else [])

end Sys2Proof.Machine
end

