-- ==== Sys2Proof/Machine/Handset.lean ====
section
/-! DEFINITION. Line states and handset occupancy: SEIZE (R62, R63), LEAVE (R64), HOLD (R65), RING (R66), SET_PRIVACY (R67),
RELEASE_LINE (R68), the lead and burst events (R48 to R57, R59), the two deadlines (R54, R56), the highway events (R60, R61)
and the scrub of a line record (R193). -/

namespace Sys2Proof.Machine

open Sys2Proof

/-! ### SEIZE -/

/-- The privacy flag admits a seize from a position (R62 check 9). -/
def Line.privacyAdmits (l : Line) (pos : Nat) : Bool :=
  !l.privacy || (if l.state = .held then l.holdOwner == some pos else l.occupants.all fun o => o.1 == pos)

/-- The line is out of service with cause MEMORY: its provisioned fields are as read, and the part does not use them (R61). -/
def Line.memoryOut (l : Line) : Bool := l.state == .outOfService && l.oosCause == some .memory

/-- Checks 2 to 9 of R62, in order; a line out of service for a damaged record is refused without a look at its appearance set
(R61; DEDUCED, log 25). -/
def seizeCheck (p : Part) (n pos : Nat) (d : Dev) : Option Result :=
  let l := p.line n
  let q := p.position pos
  if l.state = .unprovisioned then some .wrongState
  else if q.enabled = false then some .positionOff
  else if l.memoryOut = false ∧ l.prov.appear.getLsbD pos = false then some .notAppearing
  else if l.state = .outOfService then some .outOfService
  else if (pos, d) ∈ l.occupants then some .duplicate
  else if 4 ≤ (q.linesOf d).length then some .deviceFull
  else if 4 ≤ l.occupants.length then some .lineFull
  else if l.privacyAdmits pos = false then some .privateLine
  else none

/-- CC asks CU for its answer when the line's policy is not NONE and the device has no tap (R62, R149). -/
def Part.askTap (p : Part) (n pos : Nat) (d : Dev) : Part :=
  if (p.line n).prov.policy ≠ .none ∧ (tapChannel? p pos d).isNone then
    { p with cu := { p.cu with answer := some (p.cu.ask pos d) } }
  else p

/-- Check 10 of R62: a negative answer refuses a seize of a REQUIRED line. -/
def answerRefuses (policy : Policy) (a : Option CUAnswer) : Option Result :=
  match policy, a with
  | .required, some .noRecorder => some .noRecorder
  | .required, some .journalFull => some .journalFull
  | _, _ => none

/-- The state a seize moves a line to, and the cause (R63). -/
def seizeMove (kind : LineKind) (st : LState) (far : Bool) : LState × LineCause :=
  match kind, st with
  | .ringdown, .idle | .ringdown, .probing => if far then (.connected, .seized) else (.calling, .seized)
  | .manual, .idle | .manual, .probing => (.connected, .seized)
  | .ringdown, .ringingIn | .manual, .ringingIn => (.connected, .answered)
  | .ringdown, .held => if far then (.connected, .pickup) else (.clearing, .pickup)
  | .manual, .held => (.connected, .pickup)
  | _, st => (st, .joined)

/-- The line after a seize's move: lingering, the ring timeout and the hold are cleared, privacy is kept (R63 step 2). -/
def Line.seized (l : Line) (st : LState) : Line :=
  { l.noHold with state := st, lingering := false, ringTimeout := none, probePhase := none }

/-- SEIZE from the check of its line record on (R62 checks 2 to 11, R63). -/
def seizeLine (n pos : Nat) (d : Dev) (p : Part) : Answered :=
  match seizeCheck p n pos d with
  | some r => p.refuse r
  | none =>
    let old := p.line n
    let p1 := p.askTap n pos d
    match answerRefuses old.prov.policy p1.cu.answer with
    | some r => p.refuse r
    | none =>
      let mv := seizeMove old.prov.kind old.state (p.farLead n)
      let p2 := if old.state = .probing then p1.abortProbe n else p1
      let p3 := (p2.setLine n (old.seized mv.1)).attach n (pos, d)
      match p3.edit? (occupantOuts p3 n (pos, d) ++ stateOuts p n old (old.seized mv.1)) with
      | none => p.refuse .mixFull
      | some p4 => ((((p4.handBusy pos).cuJoin n (pos, d)).handPort n).noteLine n mv.2).accept

/-- SEIZE (R62, R63). -/
def seizeBody (n pos dev : Nat) (p : Part) : Answered :=
  match handsetOf dev with
  | none => p.refuse .badValue
  | some d => if 192 ≤ n ∨ 24 ≤ pos then p.refuse .badValue else seizeLine n pos d (p.useLine n)

def execSeize (tag n pos dev : Nat) (s : State) : Host.Outcome State Fault Refusal :=
  .next (commandRun (.seize tag n pos dev) (seizeBody n pos dev) s)

/-! ### LEAVE, HOLD, RELEASE_LINE -/

/-- The line after its last occupant has left (R50 to R52, R57, R58, R64). -/
def Line.lastLeft (l : Line) (far : Bool) : Line :=
  match l.prov.kind with
  | .ringdown => l.toIdle far
  | .manual => l.toIdle false
  | .hoot => l

/-- An accepted LEAVE (R64). -/
def Part.leaveLine (p : Part) (n : Nat) (o : Occupant) : Part :=
  let last := (p.line n).occupants.all fun x => x == o
  let far := p.farLead n
  (p.depart n [o] (fun l => if last then l.lastLeft far else l) .deviceIdle).noteLine n .left

/-- LEAVE (R64). -/
def leaveBody (n pos dev : Nat) (p : Part) : Answered :=
  match handsetOf dev with
  | none => p.refuse .badValue
  | some d =>
    if 192 ≤ n ∨ 24 ≤ pos then p.refuse .badValue
    else
      let p1 := p.useLine n
      if (p1.line n).state = .unprovisioned then p1.refuse .wrongState
      else if (pos, d) ∉ (p1.line n).occupants then p1.refuse .notOccupant
      else (p1.leaveLine n (pos, d)).accept

def execLeave (tag n pos dev : Nat) (s : State) : Host.Outcome State Fault Refusal :=
  .next (commandRun (.leave tag n pos dev) (leaveBody n pos dev) s)

/-- The line put on hold by a position (R54, R65): the deadline is the position's recall time in frames. -/
def Line.onHold (l : Line) (pos recallTime : Nat) : Line :=
  { l with state := .held, holdOwner := some pos, recallExpired := some false,
           recallTime := if recallTime = 0 then none else some (16000 * recallTime) }

/-- An accepted HOLD (R65). -/
def Part.holdLine (p : Part) (n : Nat) (o : Occupant) : Part :=
  let recallTime := (p.position o.1).recallTime
  (p.depart n [o] (fun l => l.onHold o.1 recallTime) .deviceIdle).noteLine n .hold

/-- HOLD (R65). -/
def holdBody (n pos dev : Nat) (p : Part) : Answered :=
  match handsetOf dev with
  | none => p.refuse .badValue
  | some d =>
    if 192 ≤ n ∨ 24 ≤ pos then p.refuse .badValue
    else
      let p1 := p.useLine n
      if (p1.line n).state ≠ .connected then p1.refuse .wrongState
      else if (pos, d) ∉ (p1.line n).occupants then p1.refuse .notOccupant
      else if (p1.line n).occupants ≠ [(pos, d)] then p1.refuse .lineShared
      else (p1.holdLine n (pos, d)).accept

def execHold (tag n pos dev : Nat) (s : State) : Host.Outcome State Fault Refusal :=
  .next (commandRun (.hold tag n pos dev) (holdBody n pos dev) s)

/-- The line after RELEASE_LINE (R68). -/
def Line.released (l : Line) (far : Bool) : Line :=
  match l.prov.kind, l.state with
  | .hoot, _ => { l with privacy := false }
  | .ringdown, .ringingIn => l.toIdle true
  | .ringdown, .connected | .ringdown, .held => l.toIdle far
  | _, _ => l.toIdle false

/-- RELEASE_LINE (R68). -/
def releaseLineBody (n : Nat) (p : Part) : Answered :=
  if 192 ≤ n then p.refuse .badValue
  else
    let p1 := p.useLine n
    let l := p1.line n
    match l.state with
    | .unprovisioned => p1.refuse .wrongState
    | .idle | .probing | .outOfService => p1.accept
    | .opened | .ringingIn | .calling | .connected | .clearing | .held =>
      let far := p1.farLead n
      if l.state = .opened ∧ l.occupants = [] then p1.accept
      else ((p1.depart n l.occupants (fun x => x.released far) .deviceIdle).noteLine n .released).accept

def execReleaseLine (tag n : Nat) (s : State) : Host.Outcome State Fault Refusal :=
  .next (commandRun (.releaseLine tag n) (releaseLineBody n) s)

/-! ### RING and SET_PRIVACY -/

/-- RING (R35, R66). -/
def ringBody (n : Nat) (p : Part) : Answered :=
  if 192 ≤ n then p.refuse .badValue
  else
    let p1 := p.useLine n
    let l := p1.line n
    if l.state ≠ .connected ∨ l.prov.kind ≠ .manual then p1.refuse .wrongState
    else if (p1.port n).burst ≠ 0 then p1.refuse .busy
    else (p1.setPort n { p1.port n with burst := 16000, outLead := true }).accept

def execRing (tag n : Nat) (s : State) : Host.Outcome State Fault Refusal :=
  .next (commandRun (.ring tag n) (ringBody n) s)

/-- SET_PRIVACY (R67). -/
def setPrivacyBody (n pos onOff : Nat) (p : Part) : Answered :=
  match onOffOf onOff with
  | none => p.refuse .badValue
  | some v =>
    if 192 ≤ n ∨ 24 ≤ pos then p.refuse .badValue
    else
      let p1 := p.useLine n
      let l := p1.line n
      if l.state = .unprovisioned ∨ l.prov.kind = .hoot then p1.refuse .wrongState
      else if (l.occupants.any fun o => o.1 == pos && o.2 != .sk) = false then p1.refuse .notOccupant
      else if v ∧ (l.occupants.all fun o => o.1 == pos) = false then p1.refuse .lineShared
      else if l.privacy = v then p1.accept
      else ((p1.setLine n { l with privacy := v }).noteLine n .privacy).accept

def execSetPrivacy (tag n pos onOff : Nat) (s : State) : Host.Outcome State Fault Refusal :=
  .next (commandRun (.setPrivacy tag n pos onOff) (setPrivacyBody n pos onOff) s)

/-! ### Lead and burst events -/

/-- A line with no occupants moves, as an event of its own: state, edit, lead, LINE_STATE (R47). -/
def Part.moveLine (p : Part) (n : Nat) (upd : Line → Line) (cause : LineCause) : Part :=
  (p.depart n [] upd .deviceIdle).noteLine n cause

/-- The line ringing in (R48, R55). -/
def Line.ringing (timeout : Option Nat) (l : Line) : Line :=
  { l with state := .ringingIn, ringTimeout := timeout, probePhase := none }

/-- The line in another state, nothing else changed. -/
def Line.goTo (st : LState) (l : Line) : Line := { l with state := st }

/-- CC takes a far lead rise (R48, R50, R52, R59). -/
def riseEventBody (n : Nat) (p : Part) : Part :=
  let p1 := p.useLine n
  let l := p1.line n
  match l.prov.kind, l.state with
  | .ringdown, .idle => if l.lingering then p1 else p1.moveLine n (Line.ringing none) .farRing
  | .ringdown, .probing =>
    if l.lingering then p1 else (p1.abortProbe n).moveLine n (Line.ringing none) .farRing
  | .ringdown, .calling => p1.moveLine n (Line.goTo .connected) .farAnswer
  | .ringdown, .clearing => p1.moveLine n (Line.goTo .connected) .farReturn
  | _, _ => p1

/-- RISE_EVENT (R48, R50, R52, R59). -/
def execRiseEvent (n : Nat) (s : State) : Host.Outcome State Fault Refusal :=
  .next (eventRun (.riseEvent n) (riseEventBody n) s)

/-- CC takes a far lead fall (R48, R49, R51, R53, R59). -/
def fallEventBody (n : Nat) (p : Part) : Part :=
  let p1 := p.useLine n
  let l := p1.line n
  match l.prov.kind, l.state with
  | .ringdown, .idle | .ringdown, .probing => p1.setLine n { l with lingering := false }
  | .ringdown, .ringingIn => p1.moveLine n (fun x => x.toIdle false) .abandoned
  | .ringdown, .connected => p1.moveLine n (Line.goTo .clearing) .farClear
  | .ringdown, .held => p1.moveLine n (fun x => x.toIdle false) .farClear
  | _, _ => p1

/-- FALL_EVENT (R48, R49, R51, R53, R59). -/
def execFallEvent (n : Nat) (s : State) : Host.Outcome State Fault Refusal :=
  .next (eventRun (.fallEvent n) (fallEventBody n) s)

/-- The ring timeout, 6 s (R55). -/
def ringTimeoutFrames : Nat := 96000

/-- CC takes a valid burst (R55 to R57, R59). -/
def burstEventBody (n len : Nat) (p : Part) : Part :=
  let p1 := p.useLine n
  let l := p1.line n
  let told := p1.note (.ringBurst n len)
  match l.prov.kind, l.state with
  | .manual, .idle => told.moveLine n (Line.ringing (some ringTimeoutFrames)) .burst
  | .manual, .probing => (told.abortProbe n).moveLine n (Line.ringing (some ringTimeoutFrames)) .burst
  | .manual, .ringingIn => told.setLine n { l with ringTimeout := some ringTimeoutFrames }
  | .manual, .connected | .manual, .held => told
  | _, _ => p1

/-- BURST_EVENT (R55 to R57, R59). -/
def execBurstEvent (n len : Nat) (s : State) : Host.Outcome State Fault Refusal :=
  .next (eventRun (.burstEvent n len) (burstEventBody n len) s)

/-! ### Deadlines -/

/-- The recall deadline has reached 0 (R54). -/
def recallExpiryBody (n : Nat) (p : Part) : Part :=
  let p1 := p.useLine n
  let l := p1.line n
  if l.state = .held ∧ l.recallTime = some 0 then
    let p2 := p1.setLine n { l with recallTime := none, recallExpired := some true }
    let p3 := match l.holdOwner with
      | some pos => p2.note (.holdRecall n pos)
      | none => p2
    p3.edit (ownerOuts p3 l.holdOwner)
  else p1

/-- RECALL_DEADLINE_EXPIRY (R54). -/
def execRecallDeadlineExpiry (n : Nat) (s : State) : Host.Outcome State Fault Refusal :=
  .next (eventRun (.recallDeadlineExpiry n) (recallExpiryBody n) s)

/-- The ring timeout deadline has reached 0 (R56). -/
def ringTimeoutBody (n : Nat) (p : Part) : Part :=
  let p1 := p.useLine n
  let l := p1.line n
  if l.state = .ringingIn ∧ l.ringTimeout = some 0 then p1.moveLine n (fun x => x.toIdle false) .ringTimeout else p1

/-- RING_TIMEOUT (R56). -/
def execRingTimeout (n : Nat) (s : State) : Host.Outcome State Fault Refusal :=
  .next (eventRun (.ringTimeout n) (ringTimeoutBody n) s)

/-! ### Highway events and the scrub -/

/-- The lines of a highway, ascending. -/
def highwayLines (h : Nat) : List Nat := (List.range 48).map fun k => 48 * h + k

/-- Provisioned and not out of service (R60). -/
def Line.inService (l : Line) : Bool := !(l.state == .unprovisioned || l.state == .outOfService)

/-- The line out of service for its highway, every live field cleared (R60). -/
def Line.highwayLost (l : Line) : Line := { Line.fresh l.prov .outOfService with oosCause := some .highway }

/-- CC reads the record of a provisioned line to take its highway's loss (R61). -/
def readForLoss (p : Part) (n : Nat) : Part := if (p.line n).state = .unprovisioned then p else p.useLine n

/-- The outputs that a line's entry to OUT_OF_SERVICE derives (R93). -/
def lostOuts (p : Part) (n : Nat) : List Nat :=
  (p.line n).occupants.flatMap (occupantOuts p n) ++ stateOuts p n (p.line n) (p.line n).highwayLost

/-- A line loses its highway: its probe is aborted, its occupants leave and its record changes (R60 steps 1 to 3). -/
def loseLine (p : Part) (n : Nat) : Part :=
  let l := p.line n
  let p1 := if l.state = .probing then p.abortProbe n else p
  (l.occupants.foldl (fun q o => q.detach n o) p1).setLine n l.highwayLost

/-- The lines of a highway lose it in one event: relation and state of each, then one edit for the union of their outputs
(R93), then the busy marks, then CU, then LSU, then the notices (R47, R60). -/
def Part.loseLines (p : Part) (lost : List Nat) : Part :=
  let who := lost.flatMap fun n => (p.line n).occupants.map fun o => (n, o)
  let p1 := (lost.foldl loseLine p).edit (lost.flatMap (lostOuts p))
  let p2 := who.foldl (fun q x => q.handBusy x.2.1) p1
  let p3 := lost.foldl Part.handPort (cuLeaves .lineLost who p2)
  lost.foldl (fun q n => q.noteLine n .highway) p3

/-- A highway's loss at CC: the records of its provisioned lines are read, then those in service lose it, in ascending line
number (R60, R61, R181; that every record is read before the first line changes, and how CU takes the leaves: log 29). -/
def lineHighwayLostBody (h : Nat) (p : Part) : Part :=
  let p1 := (highwayLines h).foldl readForLoss p
  p1.loseLines ((highwayLines h).filter fun n => (p1.line n).inService)

/-- LINE_HIGHWAY_LOST (R60, R181). -/
def execLineHighwayLost (h : Nat) (s : State) : Host.Outcome State Fault Refusal :=
  .next (eventRun (.lineHighwayLost h) (lineHighwayLostBody h) s)

/-- A line out of service for its highway returns (R61, R182). -/
def Line.restored (l : Line) : Line :=
  Line.fresh l.prov (match l.prov.kind with
    | .hoot => .opened
    | .ringdown | .manual => .idle)

/-- The line is out of service with cause HIGHWAY. -/
def Line.highwayOut (l : Line) : Bool := l.state == .outOfService && l.oosCause == some .highway

/-- One line takes its highway's return (R61, R182). -/
def lineRestored (p : Part) (n : Nat) : Part :=
  if (p.line n).highwayOut then
    let p1 := p.useLine n
    if (p1.line n).highwayOut then ((p1.setLine n (p1.line n).restored).handPort n).noteLine n .restored else p1
  else p

/-- LINE_HIGHWAY_RESTORED (R61, R182), in ascending line number, where neither rule gives an order (DESIGN CHOICE, log 34). -/
def execLineHighwayRestored (h : Nat) (s : State) : Host.Outcome State Fault Refusal :=
  .next (eventRun (.lineHighwayRestored h) (fun p => (highwayLines h).foldl lineRestored p) s)

/-- SCRUB_LINE_CHECK (R61, R193). -/
def execScrubLineCheck (n : Nat) (s : State) : Host.Outcome State Fault Refusal :=
  .next (eventRun (.scrubLineCheck n) (fun p => p.checkLine n .scrub) s)

end Sys2Proof.Machine
end

