-- ==== Sys2Proof/Machine/MixCommands.lean ====
section
/-! DEFINITION. The commands and events at the Mix Engine between its frames: REFRESH_OUTPUT (R105), READ_MIX (R106), the
scrub of a Mix Store word (R192), and the end of a detector's hold (R125). -/

namespace Sys2Proof.Machine

open Sys2Proof

/-- REFRESH_OUTPUT (R105). -/
def refreshOutputBody (out : Nat) (p : Part) : Answered :=
  if 320 ≤ out then p.refuse .badValue
  else
    let p1 := p.edit [out]
    { part := p1, result := .ok, info := .refreshed (p1.mixList out).length (vget p1.mx.omitted out false) }

def execRefreshOutput (tag out : Nat) (s : State) : Host.Outcome State Fault Refusal :=
  .next (commandRun (.refreshOutput tag out) (refreshOutputBody out) s)

/-- An entry as READ_MIX reports it (R106). -/
def Entry.report (e : Entry) : EntryReport :=
  { source := e.source, code := e.code, essential := e.essential, duckable := e.duckable, target := e.target,
    applied := e.applied }

/-- READ_MIX's report (R106). -/
def Part.mixReport (p : Part) (out : Nat) : MixReport :=
  let l := p.mixList out
  { output := out
    entries := (l.filter fun e => !e.poisoned).map Entry.report
    poisoned := l.countP Entry.poisoned
    omitted := vget p.mx.omitted out false
    clip := vget p.mx.clip out false
    used := p.mx.used }

/-- READ_MIX: the clip flag is cleared by the report (R92, R106). -/
def readMixBody (out : Nat) (p : Part) : Answered :=
  if 320 ≤ out then p.refuse .badValue
  else
    { part := { p with mx := { p.mx with clip := vset p.mx.clip out false } }, result := .ok,
      info := .mix (p.mixReport out) }

def execReadMix (tag out : Nat) (s : State) : Host.Outcome State Fault Refusal :=
  .next (commandRun (.readMix tag out) (readMixBody out) s)

/-! ### Checks of Mix Store words -/

/-- The output whose list holds a word, if it is in use (R91, R195). -/
def MX.owner? (m : MX) (word : Nat) : Option Nat :=
  (List.range 320).find? fun o => (vget m.lists o []).any fun e => e.index == word

/-- The word holds a poisoned entry: it is not checked (R192). -/
def MX.isPoisoned (m : MX) (word : Nat) : Bool :=
  m.lists.toList.any fun l => l.any fun e => e.index == word && e.poisoned

/-- An entry is poisoned (R123, R192). -/
def MX.poison (m : MX) (word : Nat) : MX :=
  match m.owner? word with
  | none => m
  | some o => { m with
      lists := vmod m.lists o fun l => l.map fun e => if e.index = word then { e with poisoned := true } else e }

/-- The word is sound from now on. -/
def MX.mend (m : MX) (word : Nat) : MX := { m with damage := m.damage.filter fun d => d.index ≠ word }

/-- A check of one Mix Store word (R192). -/
def checkMix (p : Part) (word : Nat) (by_ : FoundBy) : Part :=
  match p.mx.damage.find? fun d => d.index == word with
  | none => p
  | some d =>
    if p.mx.isPoisoned word then p
    else
      let m := p.mx.mend word
      { p with mx := if d.double then m.poison word else m }.raise
        (.faultOffer { rank := if d.double then .high else .low, store := .mix, index := word, syndrome := d.syndrome,
                       foundBy := by_ })

/-- SCRUB_MIX_CHECK (R192). -/
def execScrubMixCheck (word : Nat) (s : State) : Host.Outcome State Fault Refusal :=
  .next (eventRun (.scrubMixCheck word) (fun p => checkMix p word .scrub) s)

/-! ### The end of a detector's hold -/

/-- The detector of a source. -/
def MX.detector (m : MX) (source : Nat) : Detector := vget m.detectors source {}

/-- The below count of an active source has reached 3200 (R125). -/
def Detector.held (d : Detector) : Bool := d.active && d.below == 3200

/-- A source's activity after the frame's stage 2: a detector whose hold has run out is already INACTIVE (R114, R125). -/
def Detector.shows (d : Detector) : Bool := d.active && d.below != 3200

/-- An event is handed over in the place another left, or behind all others. -/
def putAt (events : List Instr) (k : Nat) (e : Instr) : List Instr := events.take k ++ e :: events.drop k

/-- The hold runs out: INACTIVE, below count 0, and the activity event stands where this event stood, so that the events of
a frame stay in ascending source order (R125). -/
def holdExpiryBody (source place : Nat) (p : Part) : Part :=
  let d := p.mx.detector source
  if d.held then
    { p with
      mx := { p.mx with detectors := vset p.mx.detectors source { d with active := false, below := 0 } }
      events := putAt p.events place (.activityEvent source false) }
  else p

/-- DETECTOR_HOLD_EXPIRY (R125). -/
def execDetectorHoldExpiry (source : Nat) (s : State) : Host.Outcome State Fault Refusal :=
  .next (eventRun (.detectorHoldExpiry source)
    (holdExpiryBody source (s.part.events.findIdx fun e => e == .detectorHoldExpiry source)) s)

end Sys2Proof.Machine
end

