-- ==== Sys2Proof/Machine/Assurance.lean ====
section
/-! DEFINITION. Highways, probes and memory integrity: arrivals, windows and gaps (R178 to R183), RRDY (R184), probes (R185 to
R188), level meters (R189, R190), and the Fault Record (R194, R195). -/

namespace Sys2Proof.Machine

open Sys2Proof

/-! ### Highways -/

/-- A highway without frames: buffer empty, silent, slips not counted (R181, R182). -/
def Highway.silent (w : Highway) : Highway := { w with buffer := [], current := silence, slipsCounted := false }

/-- One slip (R183). -/
def Highway.slip (w : Highway) : Highway :=
  { w with slips := if w.slipsCounted then min 65535 (w.slips + 1) else w.slips }

/-- An arrival is written to the buffer; a full one drops its oldest frame first (R183). -/
def Highway.write (w : Highway) (f : LineFrame) : Highway :=
  let w1 := if 2 ≤ w.buffer.length then { w.slip with buffer := w.buffer.drop 1 } else w
  { w1 with buffer := w1.buffer ++ [f], slipsCounted := true }

/-- An arrival (R179). -/
def Highway.arrive (w : Highway) (f : LineFrame) : Highway :=
  let w1 := { w with gap := 0, arrivals := min 65535 (w.arrivals + 1) }
  if w.state = .lost then w1 else w1.write f

/-- A window's arrival count is in range (R180). -/
def inRange (arrivals : Nat) : Bool := decide (15998 ≤ arrivals ∧ arrivals ≤ 16002)

/-- The loss of a highway (R180, R181). -/
def gapLossBody (h : Nat) (p : Part) : Part :=
  let w := p.highway h
  if 4 ≤ h ∨ w.state = .lost then p
  else
    let p1 := p.setHighway h { w.silent with state := .lost, window := 0, arrivals := 0 }
    ((p1.judgeHighway h).raise (.lsuHighwayLoss h)).raise (.lineHighwayLost h)

/-- HIGHWAY_GAP_LOSS (R180, R181). -/
def execHighwayGapLoss (h : Nat) (s : State) : Host.Outcome State Fault Refusal :=
  .next (eventRun (.highwayGapLoss h) (gapLossBody h) s)

/-- A window has ended with an arrival count (R180, R182). A gap that already stands at 8 then acts on a highway that this
has brought to OK. -/
def windowEndBody (h arrivals : Nat) (p : Part) : Part :=
  let w := p.highway h
  if 4 ≤ h then p
  else match w.state, inRange arrivals with
    | .ok, false => (p.setHighway h { w with state := .slipping }).judgeHighway h
    | .slipping, true => (p.setHighway h { w with state := .ok }).judgeHighway h
    | .lost, true =>
      let p1 := (p.setHighway h { w.silent with state := .ok }).judgeHighway h
      let p2 := (p1.raise (.lsuHighwayReturn h)).raise (.lineHighwayRestored h)
      if w.gap = 8 then p2.raise (.highwayGapLoss h) else p2
    | .ok, true | .slipping, false | .lost, false => p

/-- HIGHWAY_WINDOW_END (R180, R182). -/
def execHighwayWindowEnd (h arrivals : Nat) (s : State) : Host.Outcome State Fault Refusal :=
  .next (eventRun (.highwayWindowEnd h arrivals) (windowEndBody h arrivals) s)

/-- AU's own events of a highway. -/
def ownHighwayEvent (h : Nat) : Instr → Bool
  | .highwayWindowEnd k _ => k == h
  | .highwayGapLoss k => k == h
  | _ => false

/-- AU finishes the frame before it takes an arrival: what the frame found of the highway's window and gap comes first
(R179). -/
def finishFrame (h : Nat) (p : Part) (e : Instr) : Part :=
  match e with
  | .highwayWindowEnd k a => if k = h then windowEndBody k a { p with events := p.events.erase e } else p
  | .highwayGapLoss k => if k = h then gapLossBody k { p with events := p.events.erase e } else p
  | _ => p

/-- What waits of a highway's own events is taken once through. -/
def Part.finishOwn (p : Part) (h : Nat) : Part := (p.events.filter (ownHighwayEvent h)).foldl (finishFrame h) p

/-- AU finishes the frame for a highway: its own events that wait, and then the gap loss that the end of a window has raised
on a highway brought to OK with its gap count at 8 (R179 steps 3 and 4, R180; log 20). -/
def Part.finishHighway (p : Part) (h : Nat) : Part := (p.finishOwn h).finishOwn h

/-- An arrival at AU (R179, R183). -/
def arrivalBody (h : Nat) (f : LineFrame) (p : Part) : Part :=
  let p1 := p.finishHighway h
  p1.setHighway h ((p1.highway h).arrive f)

/-- HIGHWAY_FRAME_ARRIVAL (R179, R183). -/
def execHighwayFrameArrival (h : Nat) (f : LineFrame) (s : State) : Host.Outcome State Fault Refusal :=
  .next (eventRun (.highwayFrameArrival h f) (arrivalBody h f) s)

/-- A reference frame takes the current frame from the buffer, or repeats it (R179 step 1, R183). -/
def Highway.take (w : Highway) : Highway :=
  if w.state = .lost then { w with current := silence }
  else match w.buffer with
    | f :: rest => { w with current := f, buffer := rest }
    | [] => w.slip

/-- A reference frame's count of gap and window (R179 steps 2 to 4, R180). -/
def Highway.count (w : Highway) : Highway :=
  let gap := min 8 (w.gap + 1)
  let restart := decide (16000 ≤ w.window + 1) || (w.state == .lost && gap == 8)
  { w with gap := gap, window := if restart then 0 else w.window + 1, arrivals := if restart then 0 else w.arrivals }

/-- The events of a highway's reference frame: the end of its window, and a gap of 8 in service (R179, R180). -/
def Highway.frameEvents (w : Highway) (h : Nat) : List Instr :=
  (if 16000 ≤ w.window + 1 then [.highwayWindowEnd h w.arrivals] else [])
    ++ (if w.state ≠ .lost ∧ 8 ≤ w.gap + 1 then [.highwayGapLoss h] else [])

/-! ### RRDY -/

/-- The reported level changes and is handed to CU (R156, R184). -/
def rrdyChangeBody (ready : Bool) (p : Part) : Part :=
  { p with au := { p.au with rrdy := ready } }.recorderReport ready

/-- RRDY_CHANGE (R156, R184). -/
def execRrdyChange (ready : Bool) (s : State) : Host.Outcome State Fault Refusal :=
  .next (eventRun (.rrdyChange ready) (rrdyChangeBody ready) s)

/-- The first frame after power-on: its level is the reported one, and CU has it at once (R164, R184). -/
def Part.firstRrdy (p : Part) (level : Bool) : Part :=
  { p with
    au := { p.au with rrdy := level, rrdyHold := 0, rrdyFresh := false }
    cu := { p.cu with recorderReady := level } }.setCause condRecorderLost (!level)

/-- RRDY is sampled once per reference frame (R184). -/
def Part.sampleRrdy (p : Part) (level : Bool) : Part :=
  if p.au.rrdyFresh then p.firstRrdy level
  else if level = p.au.rrdy then { p with au := { p.au with rrdyHold := 0 } }
  else if 31 ≤ p.au.rrdyHold then { p with au := { p.au with rrdyHold := 0 } }.raise (.rrdyChange level)
  else { p with au := { p.au with rrdyHold := p.au.rrdyHold + 1 } }

/-! ### Probes -/

/-- The probe record of a line (R185). -/
def Part.probeOf (p : Part) (n : Nat) : Option Probe := p.au.probes.find? fun r => r.line == n

/-- A probe starts: op slot, line, record, lead (R59, R185). -/
def Part.startProbe (p : Part) (n window slot tag : Nat) : Part :=
  let p1 := p.takeOp slot tag (.probe n)
  let p2 := p1.setLine n { p1.line n with state := .probing, probePhase := some .toneOn }
  let r : Probe := { line := n, window := window, phase := .toneOn, done := 0, onSum := 0, offSum := 0 }
  ({ p2 with au := { p2.au with probes := p2.au.probes ++ [r] } }.handPort n).noteLine n .probe

/-- PROBE (R185). -/
def probeBody (tag n window : Nat) (p : Part) : Answered :=
  if 192 ≤ n then p.refuse .badValue
  else
    let p1 := p.useLine n
    if (p1.line n).state ≠ .idle ∨ (p1.line n).prov.kind = .hoot then p1.refuse .wrongState
    else match p1.freeOp? with
      | none => p1.refuse .opsFull
      | some i => { part := p1.startProbe n (clampProbe window) i tag, result := .accepted }

def execProbe (tag n window : Nat) (s : State) : Host.Outcome State Fault Refusal :=
  .next (commandRun (.probe tag n window) (probeBody tag n window) s)

/-- A probe's N frames of TONE_ON are done: TONE_OFF (R186). -/
def probePhaseBody (n : Nat) (p : Part) : Part :=
  match p.probeOf n with
  | none => p
  | some r =>
    if r.phase = .toneOn ∧ r.done = r.window then
      let p1 := { p with au := { p.au with
        probes := p.au.probes.map fun (x : Probe) => if x.line = n then { x with phase := .toneOff, done := 0 } else x } }
      p1.setLine n { p1.line n with probePhase := some .toneOff }
    else p

/-- PROBE_PHASE_CHANGE (R186). -/
def execProbePhaseChange (n : Nat) (s : State) : Host.Outcome State Fault Refusal :=
  .next (eventRun (.probePhaseChange n) (probePhaseBody n) s)

/-- The verdict of a probe (R187). -/
def Probe.verdict (r : Probe) : OpResult :=
  let on := r.onSum / r.window
  let off := r.offSum / r.window
  if 1036 ≤ on ∧ off ≤ 104 then .pass on off else .fail on off

/-- A probe's N frames of TONE_OFF are done: AU discards the record, and CC places the result and returns the line to IDLE;
an end that finds no probe on the line is discarded (R187, R188). -/
def probeEndBody (n : Nat) (p : Part) : Part :=
  match p.probeOf n with
  | none => p
  | some r =>
    if r.phase = .toneOff ∧ r.done = r.window then
      let p1 := p.useLine n
      let p2 := { p1 with au := { p1.au with probes := p1.au.probes.filter fun x => x.line ≠ n } }
      if (p2.line n).state = .probing then
        (p2.placeResult (.probe n) r.verdict).moveLine n (fun l => l.toIdle l.lingering) .probeEnd
      else p2
    else p

/-- PROBE_END (R187). -/
def execProbeEnd (n : Nat) (s : State) : Host.Outcome State Fault Refusal :=
  .next (eventRun (.probeEnd n) (probeEndBody n) s)

/-- The sample AU gives MX for the send of a probed line (R186, R187). -/
def Probe.tone (r : Probe) : Int :=
  match r.phase with
  | .toneOn => toneSample r.done
  | .toneOff => 0

/-- One frame of a probe: the magnitude of the receive goes to the phase's sum (R186, R187). -/
def Probe.frame (r : Probe) (receive : Int) : Probe :=
  match r.phase with
  | .toneOn => { r with done := r.done + 1, onSum := r.onSum + receive.natAbs }
  | .toneOff => { r with done := r.done + 1, offSum := r.offSum + receive.natAbs }

/-- The events of a probe's frame. -/
def Probe.frameEvents (r : Probe) : List Instr :=
  if r.done + 1 = r.window then
    match r.phase with
    | .toneOn => [.probePhaseChange r.line]
    | .toneOff => [.probeEnd r.line]
  else []

/-! ### Level meters -/

/-- The largest frame count of a meter (R189). -/
def meterFull : Nat := 4294967295

/-- METER_OPEN (R189). -/
def meterOpenBody (m source : Nat) (p : Part) : Answered :=
  if 4 ≤ m ∨ 304 ≤ source then p.refuse .badValue
  else if (vget p.au.meters m none).isSome then p.refuse .busy
  else
    let x : Meter := { source := source, count := 0, sum := 0, counting := true }
    Part.accept { p with au := { p.au with meters := vset p.au.meters m (some x) } }

def execMeterOpen (tag m source : Nat) (s : State) : Host.Outcome State Fault Refusal :=
  .next (commandRun (.meterOpen tag m source) (meterOpenBody m source) s)

/-- METER_CLOSE (R190). -/
def meterCloseBody (m : Nat) (p : Part) : Answered :=
  if 4 ≤ m then p.refuse .badValue
  else match vget p.au.meters m none with
    | none => p.refuse .wrongState
    | some x =>
      { part := { p with au := { p.au with meters := vset p.au.meters m none } },
        result := if 1600 ≤ x.count then .ok else .unsettled,
        info := .level (x.sum / x.count) x.count }

def execMeterClose (tag m : Nat) (s : State) : Host.Outcome State Fault Refusal :=
  .next (commandRun (.meterClose tag m) (meterCloseBody m) s)

/-- A meter whose frame count stands at its maximum stops counting and adding (R189). -/
def meterFullBody (m : Nat) (p : Part) : Part :=
  match vget p.au.meters m none with
  | some x =>
    if x.count = meterFull then
      { p with au := { p.au with meters := vset p.au.meters m (some { x with counting := false }) } }
    else p
  | none => p

/-- METER_COUNT_FULL (R189). -/
def execMeterCountFull (m : Nat) (s : State) : Host.Outcome State Fault Refusal :=
  .next (eventRun (.meterCountFull m) (meterFullBody m) s)

/-- One frame of an open meter (R189). -/
def Meter.frame (x : Meter) (value : Int) : Meter :=
  if x.counting ∧ x.count < meterFull then { x with count := x.count + 1, sum := x.sum + value.natAbs } else x

/-- The event of a meter's frame. -/
def meterEvents (m : Nat) : Option Meter → List Instr
  | some x => if x.counting ∧ x.count + 1 = meterFull then [.meterCountFull m] else []
  | none => []

/-! ### The Fault Record -/

/-- An offer enters the record when it is empty, or when a HIGH offer meets a LOW fault (R194). -/
def entersRecord (f : Option FaultRec) (rank : Rank) : Bool :=
  match f with
  | none => true
  | some r => r.rank == .low && rank == .high

/-- AU takes an offer (R194). -/
def faultOfferBody (o : Offer) (p : Part) : Part :=
  let a := p.au
  let kept := entersRecord a.fault o.rank
  let rec_ : FaultRec := { rank := o.rank, store := o.store, index := o.index, syndrome := o.syndrome,
                           time := p.tu.floorTime, foundBy := o.foundBy }
  let low := o.rank == .low
  let p1 := { p with au := { a with
    fault := if kept then some rec_ else a.fault
    mixCorrected := if low && o.store == .mix then min 65535 (a.mixCorrected + 1) else a.mixCorrected
    lineCorrected := if low && o.store == .line then min 65535 (a.lineCorrected + 1) else a.lineCorrected } }
  if low then p1 else p1.note (.fault o.store o.index o.syndrome p.tu.floorTime o.foundBy kept)

/-- FAULT_OFFER (R194). -/
def execFaultOffer (o : Offer) (s : State) : Host.Outcome State Fault Refusal :=
  .next (eventRun (.faultOffer o) (faultOfferBody o) s)

/-- READ_FAULT's report (R195). -/
def Part.faultReport (p : Part) : FaultReport :=
  { fault := p.au.fault
    output := match p.au.fault with
      | some { rank := _, store := .mix, index := i, syndrome := _, time := _, foundBy := _ } => p.mx.owner? i
      | some { rank := _, store := .line, index := _, syndrome := _, time := _, foundBy := _ } | none => none
    mix := p.au.mixCorrected
    line := p.au.lineCorrected }

/-- READ_FAULT (R195). -/
def readFaultBody (p : Part) : Answered :=
  { part := { p with au := { p.au with mixCorrected := 0, lineCorrected := 0 } }, result := .ok,
    info := .fault p.faultReport }

def execReadFault (tag : Nat) (s : State) : Host.Outcome State Fault Refusal :=
  .next (commandRun (.readFault tag) readFaultBody s)

/-- CLEAR_FAULT (R195). -/
def clearFaultBody (p : Part) : Answered := Part.accept { p with au := { p.au with fault := none } }

def execClearFault (tag : Nat) (s : State) : Host.Outcome State Fault Refusal :=
  .next (commandRun (.clearFault tag) clearFaultBody s)

end Sys2Proof.Machine
end

