-- ==== Sys2Proof/Machine/Cue.lean ====
section
/-! DEFINITION. The cue players: CUE_LOAD (R133 to R136), CUE_START (R137), CUE_STOP (R138), CUE_CONFIG (R139), READ_CUE
(R140), the block boundary (R131) and a player's frame (R130). -/

namespace Sys2Proof.Machine

open Sys2Proof

/-! ### The block boundary -/

/-- The pointer enters a block, which is judged once (R131 step 2). -/
def Player.enter (q : Player) (b : Nat) : Player :=
  { q with block := b, sample := 0, underrun := !(vget q.valid b false) }

/-- The pointer stands at the end of its block and the next advance crosses a boundary. -/
def Player.atEnd (q : Player) : Bool := q.playing && q.sample == 31

/-- The boundary: a SINGLE player's block is spent, and the next block is entered and judged (R130, R131). -/
def Player.cross (q : Player) : Player :=
  let q1 := if q.continuous then q else { q with valid := vset q.valid q.block false }
  q1.enter ((q.block + 1) % 64)

/-- CUE_BLOCK_BOUNDARY (R131, R132), for a player whose pointer stands there. -/
def cueBlockBoundaryBody (k : Nat) (p : Part) : Part :=
  if (p.player k).atEnd then (p.setPlayer k (p.player k).cross).judgeUnderrun k else p

/-- CUE_BLOCK_BOUNDARY (R131, R132). -/
def execCueBlockBoundary (k : Nat) (s : State) : Host.Outcome State Fault Refusal :=
  .next (eventRun (.cueBlockBoundary k) (cueBlockBoundaryBody k) s)

/-- CUE takes a frame whole before any command or action on the player (R131, R138, R141): a boundary that the latest frame
has come to and whose event still waits is crossed first, and what it tells goes ahead of the reply (DEDUCED, log 20). R141
has a scheduled stop end a SINGLE prompt at the frame after its last block, before the pointer underruns, while R130 and R131
enter the spent block within the last sample's own advance: the model follows R131, so that such a stop comes after the
underrun and its CONDITION (DESIGN CHOICE, log 45). -/
def Part.finishAdvance (p : Part) (k : Nat) : Part :=
  if .cueBlockBoundary k ∈ p.events then
    let p1 := cueBlockBoundaryBody k { p with events := p.events.erase (.cueBlockBoundary k) }
    { p1 with early := p1.early ++ p1.outbox, outbox := [] }
  else p

/-! ### Loading -/

/-- The distance of a block from the play block (R128). -/
def Player.distance (q : Player) (b : Nat) : Nat := (b + 64 - q.block) % 64

/-- The first block of a load: ABS 0 names it, REL 1 counts from the play block (R133 checks 2 and 3). -/
def Player.firstBlock (q : Player) (addressing value : Nat) : Option Nat :=
  match addressing with
  | 0 => if value < 64 then some value else none
  | 1 => if 1 ≤ value ∧ value < 64 then some ((q.block + value) % 64) else none
  | _ => none

/-- The blocks of a load, wrapping from 63 to 0 (R133 check 3). -/
def loadBlocks (first count : Nat) : List Nat := (List.range count).map fun j => (first + j) % 64

/-- A playing player admits a block from distance 1 to its window (R134). -/
def Player.admits (q : Player) (b : Nat) : Bool := decide (1 ≤ q.distance b ∧ q.distance b ≤ q.window)

/-- The j-th block of a load's samples. -/
def blockSamples (samples : List Sample) (j : Nat) : Vector Sample 32 :=
  Vector.ofFn fun k => samples.getD (32 * j + k.val) 0

/-- One block is written and becomes valid (R135). -/
def Player.writeBlock (q : Player) (b : Nat) (x : Vector Sample 32) : Player :=
  { q with ring := vset q.ring b x, valid := vset q.valid b true }

/-- A load's blocks are written in order (R135). -/
def Player.load (q : Player) (first count : Nat) (samples : List Sample) : Player :=
  (List.range count).foldl (fun r j => r.writeBlock ((first + j) % 64) (blockSamples samples j)) q

/-- CUE_LOAD (R133 to R136). A reply of WINDOW shows the pointer too (the example of section 7.6; log 14). -/
def cueLoadBody (k addressing value count : Nat) (samples : List Sample) (p : Part) : Answered :=
  let p1 := p.finishAdvance k
  let q := p1.player k
  if 8 ≤ k ∨ 2 ≤ addressing ∨ count = 0 ∨ 3 < count then p.refuse .badValue
  else match q.firstBlock addressing value with
    | none => p.refuse .badValue
    | some first =>
      if q.playing ∧ ((loadBlocks first count).all q.admits) = false then
        { part := p1, result := .window, info := .pointer q.block q.sample }
      else { part := p1.setPlayer k (q.load first count samples), result := .ok, info := .loaded first q.block q.sample }

def execCueLoad (tag k addressing value count : Nat) (samples : List Sample) (s : State) :
    Host.Outcome State Fault Refusal :=
  .next (commandRun (.cueLoad tag k addressing value count samples) (cueLoadBody k addressing value count samples) s)

/-! ### Starting, stopping, configuring, reading -/

/-- SINGLE 0, CONTINUOUS 1 (R137). -/
def continuousOf : Nat → Option Bool
  | 0 => some false | 1 => some true | _ => none

/-- CUE_START (R137). -/
def cueStartBody (k mode block : Nat) (p : Part) : Answered :=
  match continuousOf mode with
  | none => p.refuse .badValue
  | some c =>
    if 8 ≤ k ∨ 64 ≤ block then p.refuse .badValue
    else
      let p1 := p.finishAdvance k
      ((p1.setPlayer k ({ p1.player k with continuous := c, playing := true }.enter block)).judgeUnderrun k).accept

def execCueStart (tag k mode block : Nat) (s : State) : Host.Outcome State Fault Refusal :=
  .next (commandRun (.cueStart tag k mode block) (cueStartBody k mode block) s)

/-- CUE_STOP (R138). -/
def cueStopBody (k : Nat) (p : Part) : Answered :=
  if 8 ≤ k then p.refuse .badValue
  else
    let p1 := p.finishAdvance k
    ((p1.setPlayer k { p1.player k with playing := false, underrun := false }).judgeUnderrun k).accept

def execCueStop (tag k : Nat) (s : State) : Host.Outcome State Fault Refusal :=
  .next (commandRun (.cueStop tag k) (cueStopBody k) s)

/-- CUE_CONFIG (R139). -/
def cueConfigBody (k window : Nat) (p : Part) : Answered :=
  if 8 ≤ k then p.refuse .badValue
  else
    { part := p.setPlayer k { p.player k with window := clampWindow window }, result := .ok,
      info := .window (clampWindow window) }

def execCueConfig (tag k window : Nat) (s : State) : Host.Outcome State Fault Refusal :=
  .next (commandRun (.cueConfig tag k window) (cueConfigBody k window) s)

/-- READ_CUE's report (R140). -/
def Player.report (q : Player) : CueReport :=
  { playing := q.playing, continuous := q.continuous, block := q.block, sample := q.sample, window := q.window,
    underrun := q.underrun, valid := q.valid }

/-- READ_CUE (R140). -/
def readCueBody (k : Nat) (p : Part) : Answered :=
  if 8 ≤ k then p.refuse .badValue
  else { part := p.finishAdvance k, result := .ok, info := .cue ((p.finishAdvance k).player k).report }

def execReadCue (tag k : Nat) (s : State) : Host.Outcome State Fault Refusal :=
  .next (commandRun (.readCue tag k) (readCueBody k) s)

/-! ### Playing -/

/-- The sample a player offers on a frame (R130). -/
def Player.offer (q : Player) : Sample :=
  if q.playing && !q.underrun then vget (vget q.ring q.block (Vector.replicate 32 0)) q.sample 0 else 0

/-- One frame of a player: the offer, then the advance; the advance over a boundary is the boundary's own event (R130). -/
def Player.frame (q : Player) : Player :=
  { q with offered := q.offer, sample := if q.playing ∧ q.sample ≠ 31 then q.sample + 1 else q.sample }

end Sys2Proof.Machine
end

