-- ==== Sys2Proof/Machine/FloorPlan.lean ====
section
/-! DEFINITION. Lines, positions and the floor plan: DEFINE_LINE and REMOVE_LINE (R5 to R8), the position commands (R10 to
R13), DEFINE_SPEAKER (R15), DEFINE_GROUP (R16), CUE_ROUTE (R100), SET_GUARD (R19), the digest (R20 to R23), READ_LINE (R45)
and READ_POSITION (R46). -/

namespace Sys2Proof.Machine

open Sys2Proof

/-! ### Lines -/

/-- The states that admit a definition (R6 check 3). -/
def Line.definable (l : Line) : Bool :=
  match l.state with
  | .unprovisioned | .idle => true
  | .opened => l.occupants.isEmpty
  | .outOfService => l.oosCause == some .memory
  | .ringingIn | .calling | .connected | .clearing | .held | .probing => false

/-- The states that admit a removal (R8 check 3). -/
def Line.removable (l : Line) : Bool :=
  match l.state with
  | .idle | .outOfService => true
  | .opened => l.occupants.isEmpty
  | .unprovisioned | .ringingIn | .calling | .connected | .clearing | .held | .probing => false

/-- Some speaker slot targets the line (R6, R8 check 4). -/
def Part.targeted (p : Part) (n : Nat) : Bool := p.cc.slots.toList.any fun s => s.target == .hoot n

/-- LSU takes a definition: debounced value and count kept, the count cleared if the sense changes (R27, R28); burst, timer
and lead cleared (R7, R33). -/
def Port.define (q : Port) (v : LineProv) (provisioned oos : Bool) : Port :=
  { q with
    stable := if q.sense = v.sense then q.stable else 0
    kind := v.kind, sense := v.sense, edge := v.edge, debounce := v.debounce
    provisioned := provisioned, outOfService := oos
    outLead := false, burst := 0, inTimer := none }

/-- The state and cause after a definition (R7). -/
def definedState (kind : LineKind) (lost : Bool) : LState × Option OosCause :=
  if lost then (.outOfService, some .highway)
  else match kind with
    | .hoot => (.opened, none)
    | .ringdown | .manual => (.idle, none)

/-- CC's copy of a line's kind (R61). -/
def Part.keepKind (p : Part) (n : Nat) (k : LineKind) : Part :=
  { p with cc := { p.cc with kinds := vset p.cc.kinds n k } }

/-- An accepted DEFINE_LINE (R7). -/
def Part.defineLine (p : Part) (n : Nat) (v : LineProv) : Part :=
  let p1 := p.produceChange n
  let old := p1.line n
  let st := definedState v.kind ((p1.highway (hwOf n)).state == .lost)
  let lingering := v.kind == .ringdown && st.1 == .idle && p1.farLead n
  let p2 := (p1.setLine n { Line.fresh v st.1 with oosCause := st.2, lingering := lingering }).keepKind n v.kind
  let p3 := (p2.setPort n ((p2.port n).define v true (st.1 == .outOfService))).disturb
  if old.state = st.1 ∧ (st.1 = .idle ∨ st.1 = .opened) then p3 else p3.noteLine n .defined

/-- DEFINE_LINE (R6, R7). -/
def defineLineBody (n kind : Nat) (appear : BitVec 24) (policy : Nat) (ringCue holdCue : Option Nat)
    (sense edge debounce : Nat) (p : Part) : Answered :=
  match lineKindOf kind, policyOf policy, senseOf sense, edgeOf edge with
  | some k, some pol, some sn, some ed =>
    if 192 ≤ n ∨ cueChoiceOk ringCue = false ∨ cueChoiceOk holdCue = false then p.refuse .badValue
    else if p.guardOf 0 ≠ .opened then p.refuse .guarded
    else
      let p1 := p.useLine n
      if (p1.line n).definable = false then p1.refuse .wrongState
      else if (p1.line n).prov.kind = .hoot ∧ k ≠ .hoot ∧ p1.targeted n then p1.refuse .referenced
      else
        (p1.defineLine n { kind := k, appear := appear, policy := pol, ringCue := ringCue, holdCue := holdCue,
                           sense := sn, edge := ed, debounce := clampDebounce debounce }).accept
  | _, _, _, _ => p.refuse .badValue

def execDefineLine (tag n kind : Nat) (appear : BitVec 24) (policy : Nat) (ringCue holdCue : Option Nat)
    (sense edge debounce : Nat) (s : State) : Host.Outcome State Fault Refusal :=
  .next (commandRun (.defineLine tag n kind appear policy ringCue holdCue sense edge debounce)
    (defineLineBody n kind appear policy ringCue holdCue sense edge debounce) s)

/-- An accepted REMOVE_LINE (R8, R37). -/
def Part.removeLine (p : Part) (n : Nat) : Part :=
  let p1 := p.produceChange n
  let p2 := (p1.setLine n {}).keepKind n .ringdown
  ((p2.setPort n ((p2.port n).define LineProv.blank false false)).disturb).noteLine n .removed

/-- REMOVE_LINE (R8). -/
def removeLineBody (n : Nat) (p : Part) : Answered :=
  if 192 ≤ n then p.refuse .badValue
  else if p.guardOf 0 ≠ .opened then p.refuse .guarded
  else
    let p1 := p.useLine n
    if (p1.line n).removable = false then p1.refuse .wrongState
    else if p1.targeted n then p1.refuse .referenced
    else (p1.removeLine n).accept

def execRemoveLine (tag n : Nat) (s : State) : Host.Outcome State Fault Refusal :=
  .next (commandRun (.removeLine tag n) (removeLineBody n) s)

/-! ### Positions -/

/-- A position has a live claim (R11 check 3). -/
def Part.liveClaim (p : Part) (pos : Nat) : Bool :=
  let q := p.position pos
  !q.linesA.isEmpty || !q.linesB.isEmpty || q.sk.isSome
    || p.cc.lines.toList.any fun l => l.state == .held && l.holdOwner == some pos

/-- The lines occupied by the handsets of a position. -/
def Position.handsetLines (q : Position) : List Nat := q.linesA ++ q.linesB

/-- The send of the hoot a position's SK talks on. -/
def skSend (q : Position) : List Nat :=
  match q.sk with
  | some { target := .hoot n, through := _, talking := _ } => [sendOutput n]
  | some { target := .group _, through := _, talking := _ } | none => []

/-- The outputs that depend on a position record (R11). -/
def positionOuts (p : Part) (pos : Nat) : List Nat :=
  let q := p.position pos
  [4 * pos, 4 * pos + 1, 4 * pos + 2, 4 * pos + 3] ++ q.handsetLines.map sendOutput ++ skSend q
    ++ recorderOuts p pos .ha ++ recorderOuts p pos .hb

/-- The record a DEFINE_POSITION writes over an old one; codes, trims, depth and time clamped (R10, R11). -/
def positionRecord (a : PositionArgs) (old : Position) (enabled : Bool) (ringOut : Side) (audible : Bool) : Position :=
  { old with
    enabled := enabled
    rxA := clampCode a.rxA, rxB := clampCode a.rxB
    micA := clampCode a.micA, micB := clampCode a.micB, micS := clampCode a.micS
    sideA := clampCode a.sideA, sideB := clampCode a.sideB
    trimEA := clampTrim a.trimEA, trimEB := clampTrim a.trimEB, trimSL := clampTrim a.trimSL, trimSR := clampTrim a.trimSR
    duck := clampNat 40 a.duck, ringOut := ringOut, audible := audible, recallTime := clampNat 600 a.recallTime }

/-- DEFINE_POSITION (R11, R12). -/
def definePositionBody (pos : Nat) (a : PositionArgs) (p : Part) : Answered :=
  match onOffOf a.enabled, sideOf a.ringOut, onOffOf a.audible with
  | some en, some ro, some au =>
    if 24 ≤ pos then p.refuse .badValue
    else if p.guardOf 1 ≠ .opened then p.refuse .guarded
    else if en = false ∧ (p.position pos).enabled ∧ p.liveClaim pos then p.refuse .wrongState
    else
      let p1 := p.setPosition pos (positionRecord a (p.position pos) en ro au)
      match p1.edit? (positionOuts p1 pos) with
      | none => p.refuse .mixFull
      | some p2 => (((p2.handTrims pos).handPriority pos).disturb).accept
  | _, _, _ => p.refuse .badValue

def execDefinePosition (tag pos : Nat) (a : PositionArgs) (s : State) : Host.Outcome State Fault Refusal :=
  .next (commandRun (.definePosition tag pos a) (definePositionBody pos a) s)

/-- What SET_DEVICE_GAIN changes: the record with the field written, and the outputs that depend on it; none for a pairing
R13 does not allow. -/
def gainChange (p : Part) (pos device which code : Nat) : Option (Position × List Nat) :=
  let q := p.position pos
  match which, deviceOf device with
  | 0, some .ha => some ({ q with rxA := code }, earOutput pos .ha :: recorderOuts p pos .ha)
  | 0, some .hb => some ({ q with rxB := code }, earOutput pos .hb :: recorderOuts p pos .hb)
  | 1, some .ha => some ({ q with micA := code }, q.linesA.map sendOutput ++ recorderOuts p pos .ha)
  | 1, some .hb => some ({ q with micB := code }, q.linesB.map sendOutput ++ recorderOuts p pos .hb)
  | 1, some .sk => some ({ q with micS := code }, skSend q)
  | 2, some .ha => some ({ q with sideA := code }, [earOutput pos .ha])
  | 2, some .hb => some ({ q with sideB := code }, [earOutput pos .hb])
  | _, _ => none

/-- SET_DEVICE_GAIN (R13). -/
def setDeviceGainBody (pos device which code : Nat) (p : Part) : Answered :=
  if 24 ≤ pos then p.refuse .badValue
  else match gainChange p pos device which (clampCode code) with
    | none => p.refuse .badValue
    | some (q, outs) => match (p.setPosition pos q).edit? outs with
      | none => p.refuse .mixFull
      | some p1 => p1.disturb.accept

def execSetDeviceGain (tag pos device which code : Nat) (s : State) : Host.Outcome State Fault Refusal :=
  .next (commandRun (.setDeviceGain tag pos device which code) (setDeviceGainBody pos device which code) s)

/-- A position record with one trim written (R13); none for an output that is not EA, EB, SL or SR. -/
def trimmed (q : Position) (t : Int) : Nat → Option Position
  | 0 => some { q with trimEA := t }
  | 1 => some { q with trimEB := t }
  | 2 => some { q with trimSL := t }
  | 3 => some { q with trimSR := t }
  | _ => none

/-- SET_TRIM (R13). -/
def setTrimBody (pos output : Nat) (t : Int) (p : Part) : Answered :=
  if 24 ≤ pos then p.refuse .badValue
  else match trimmed (p.position pos) (clampTrim t) output with
    | none => p.refuse .badValue
    | some q => (((p.setPosition pos q).handTrims pos).disturb).accept

def execSetTrim (tag pos output : Nat) (t : Int) (s : State) : Host.Outcome State Fault Refusal :=
  .next (commandRun (.setTrim tag pos output t) (setTrimBody pos output t) s)

/-! ### Speaker slots, groups, routes, guards -/

/-- The target a command names (R15): none 0, a line 1, a group 2; `none` when out of range. -/
def targetOf (kind target : Nat) : Option Target :=
  match kind with
  | 0 => some .none
  | 1 => if target < 192 then some (.hoot target) else none
  | 2 => if target < 32 then some (.group target) else none
  | _ => none

/-- A line target must be a provisioned HOOT line, by the kind CC keeps apart (R15 check 3, R61). -/
def Part.targetFit (p : Part) : Target → Bool
  | .none | .group _ => true
  | .hoot n => (p.line n).state != .unprovisioned && vget p.cc.kinds n .ringdown == .hoot

/-- The slot is in use for talking (R15 check 4). -/
def Part.slotInUse (p : Part) (pos k : Nat) : Bool :=
  match (p.slot pos k).target with
  | .none => false
  | .hoot _ => (p.slot pos k).talking
  | .group g => match (p.position pos).sk with
    | some e => e.target == .group g && e.through == some k
    | none => false

/-- The SL and SR outputs of a position. -/
def speakerOuts (pos : Nat) : List Nat := [4 * pos + 2, 4 * pos + 3]

/-- DEFINE_SPEAKER (R15, R90). -/
def defineSpeakerBody (pos k targetKind target side code priority listen : Nat) (p : Part) : Answered :=
  match targetOf targetKind target, sideOf side, onOffOf priority, onOffOf listen with
  | some t, some sd, some pr, some li =>
    if 24 ≤ pos ∨ 12 ≤ k then p.refuse .badValue
    else if p.guardOf 2 ≠ .opened then p.refuse .guarded
    else if p.targetFit t = false then p.refuse .wrongState
    else if t ≠ (p.slot pos k).target ∧ p.slotInUse pos k then p.refuse .wrongState
    else
      let s := { p.slot pos k with target := t, side := sd, gain := clampCode code, priority := pr, listen := li }
      match (p.setSlot pos k s).edit? (speakerOuts pos) with
      | none => p.refuse .mixFull
      | some p1 => ((p1.handPriority pos).disturb).accept
  | _, _, _, _ => p.refuse .badValue

def execDefineSpeaker (tag pos k targetKind target side code priority listen : Nat) (s : State) :
    Host.Outcome State Fault Refusal :=
  .next (commandRun (.defineSpeaker tag pos k targetKind target side code priority listen)
    (defineSpeakerBody pos k targetKind target side code priority listen) s)

/-- Every member is a position with a priority choice, and none stands twice (R16 check 1, R200). -/
def membersOk (members : List (Nat × Nat)) : Bool :=
  members.all (fun m => decide (m.1 < 24) && (onOffOf m.2).isSome) && decide (members.map Prod.fst).Nodup

/-- The member list as the record holds it (R16). -/
def memberFlags (members : List (Nat × Nat)) : List (Nat × Bool) :=
  members.map fun m => (m.1, (onOffOf m.2).getD false)

/-- DEFINE_GROUP (R16). -/
def defineGroupBody (g : Nat) (members : List (Nat × Nat)) (talkCode revoke : Nat) (p : Part) : Answered :=
  if 32 ≤ g ∨ membersOk members = false then p.refuse .badValue
  else if p.guardOf 3 ≠ .opened then p.refuse .guarded
  else if (p.group g).talkers ≠ [] ∨ (p.group g).waiters ≠ [] then p.refuse .wrongState
  else
    ((p.setGroup g { p.group g with
        members := memberFlags members, talkCode := clampCode talkCode, revoke := clampNat 300 revoke }).disturb).accept

def execDefineGroup (tag g : Nat) (members : List (Nat × Nat)) (talkCode revoke : Nat) (s : State) :
    Host.Outcome State Fault Refusal :=
  .next (commandRun (.defineGroup tag g members talkCode revoke) (defineGroupBody g members talkCode revoke) s)

/-- The output a route feeds. -/
def routeOuts : Option Route → List Nat
  | some r => [r.output]
  | none => []

/-- CUE_ROUTE (R100); with a player of none the output and code are ignored. -/
def cueRouteBody (route : Nat) (player : Option Nat) (output code : Nat) (p : Part) : Answered :=
  if 32 ≤ route ∨ cueChoiceOk player = false ∨ (player.isSome ∧ 96 ≤ output) then p.refuse .badValue
  else
    let old := vget p.cc.routes route none
    let new := player.map fun k => { player := k, output := output, code := clampCode code : Route }
    let p1 := { p with cc := { p.cc with routes := vset p.cc.routes route new } }
    match p1.edit? (routeOuts old ++ routeOuts new) with
    | none => p.refuse .mixFull
    | some p2 => p2.accept

def execCueRoute (tag route : Nat) (player : Option Nat) (output code : Nat) (s : State) :
    Host.Outcome State Fault Refusal :=
  .next (commandRun (.cueRoute tag route player output code) (cueRouteBody route player output code) s)

/-- SET_GUARD (R19). -/
def setGuardBody (cls level : Nat) (p : Part) : Answered :=
  match levelOf level with
  | none => p.refuse .badValue
  | some v =>
    if 4 ≤ cls then p.refuse .badValue
    else if p.guardOf cls = .locked ∧ v ≠ .locked then p.refuse .locked
    else Part.accept { p with cc := { p.cc with guards := vset p.cc.guards cls v } }

def execSetGuard (tag cls level : Nat) (s : State) : Host.Outcome State Fault Refusal :=
  .next (commandRun (.setGuard tag cls level) (setGuardBody cls level) s)

/-! ### The digest -/

/-- The place of a value in its listed order (R21). -/
def kindNum : LineKind → Nat
  | .ringdown => 0 | .manual => 1 | .hoot => 2

/-- The place of a value in its listed order (R21). -/
def policyNum : Policy → Nat
  | .none => 0 | .bestEffort => 1 | .required => 2

/-- The place of a value in its listed order (R21). -/
def senseNum : Sense → Nat
  | .normal => 0 | .inverted => 1

/-- The place of a value in its listed order (R21). -/
def edgeNum : EdgeReport → Nat
  | .none => 0 | .rise => 1 | .fall => 2 | .both => 3

/-- SL 0, SR 1 in the digest (R21). -/
def Side.place : Side → Nat
  | .sl => 0 | .sr => 1

/-- One byte of a number. -/
def byte (n : Nat) : Byte := BitVec.ofNat 8 n

/-- on 1, off 0 (R21). -/
def flagByte (b : Bool) : Byte := if b then 1 else 0

/-- A line record's 11 bytes (R21). -/
def Line.digestBytes (l : Line) : List Byte :=
  let v := l.prov
  [flagByte (l.state != .unprovisioned), byte (kindNum v.kind),
   v.appear.extractLsb' 0 8, v.appear.extractLsb' 8 8, v.appear.extractLsb' 16 8,
   byte (policyNum v.policy), optByte v.ringCue, optByte v.holdCue, byte (senseNum v.sense), byte (edgeNum v.edge), byte v.debounce]

/-- A position record's 17 bytes (R21). -/
def Position.digestBytes (q : Position) : List Byte :=
  [flagByte q.enabled, byte q.rxA, byte q.rxB, byte q.micA, byte q.micB, byte q.micS, byte q.sideA, byte q.sideB,
   BitVec.ofInt 8 q.trimEA, BitVec.ofInt 8 q.trimEB, BitVec.ofInt 8 q.trimSL, BitVec.ofInt 8 q.trimSR,
   byte q.duck, byte q.ringOut.place, flagByte q.audible] ++ bytesBE 2 q.recallTime

/-- A speaker slot's 5 bytes (R21). -/
def Slot.digestBytes (s : Slot) : List Byte :=
  (match s.target with
    | .none => [0, 0xFF]
    | .hoot n => [1, byte n]
    | .group g => [2, byte g])
    ++ [byte s.side.place, byte s.gain, flagByte s.priority]

/-- A group record's bytes (R21). -/
def Group.digestBytes (g : Group) : List Byte :=
  byte g.members.length :: (g.members.flatMap fun m => [byte m.1, flagByte m.2]) ++ [byte g.talkCode] ++ bytesBE 2 g.revoke

/-- The i-th record in canonical order is read: a line record with its check (R21). -/
def Part.digestRecord (p : Part) (i : Nat) : Part × List Byte :=
  if i < 192 then
    let p1 := p.useLine i
    (p1, (p1.line i).digestBytes)
  else if i < 216 then (p, (p.position (i - 192)).digestBytes)
  else if i < 504 then (p, (vget p.cc.slots (i - 216) {}).digestBytes)
  else (p, (p.group (i - 504)).digestBytes)

/-- The running digest reads its next record. -/
def Part.digestRead (p : Part) (d : DigestRun) : Part :=
  let r := p.digestRecord d.next
  { r.1 with cc := { r.1.cc with digest := some { next := d.next + 1, crc := crc32Feed d.crc r.2 } } }

/-- DIGEST (R20). -/
def digestBody (tag : Nat) (p : Part) : Answered :=
  match p.cc.digest, p.freeOp? with
  | some _, _ => p.refuse .wrongState
  | none, none => p.refuse .opsFull
  | none, some i =>
    let p1 := p.takeOp i tag .digest
    { part := { p1 with cc := { p1.cc with digest := some { next := 0, crc := crc32Start } } }, result := .accepted }

def execDigest (tag : Nat) (s : State) : Host.Outcome State Fault Refusal :=
  .next (commandRun (.digest tag) (digestBody tag) s)

/-- The 536th record is read and the digest finishes with OK and its CRC (R20, R22). -/
def digestFinishBody (p : Part) : Part :=
  match p.cc.digest with
  | some { next := 535, crc := c } =>
    let r := p.digestRecord 535
    let p1 := r.1.placeResult .digest (.ok (crc32Final (crc32Feed c r.2)))
    { p1 with cc := { p1.cc with digest := none } }
  | some _ | none => p

/-- DIGEST_FINISH (R22). -/
def execDigestFinish (s : State) : Host.Outcome State Fault Refusal :=
  .next (eventRun .digestFinish digestFinishBody s)

/-! ### Reading records -/

/-- READ_LINE (R45). -/
def readLineBody (n : Nat) (p : Part) : Answered :=
  if 192 ≤ n then p.refuse .badValue
  else
    let p1 := p.useLine n
    { part := p1, result := .ok, info := .line { line := p1.line n, port := p1.port n } }

def execReadLine (tag n : Nat) (s : State) : Host.Outcome State Fault Refusal :=
  .next (commandRun (.readLine tag n) (readLineBody n) s)

/-- The activity of a slot's target as MX last reported it (R74); a slot without a target has none. -/
def Part.slotActivity (p : Part) (s : Slot) : Bool :=
  match s.target.source? with
  | some src => vget p.cc.activity src false
  | none => false

/-- READ_POSITION's report (R46). -/
def Part.positionReport (p : Part) (pos : Nat) : PositionReport :=
  { position := p.position pos
    slots := (List.range 12).map fun k => (p.slot pos k, p.slotActivity (p.slot pos k))
    outputs := (List.range 4).map fun o => ((p.mixList (4 * pos + o)).length, vget p.mx.omitted (4 * pos + o) false)
    ducking := (p.mixPos pos).ducking
    groups := (List.range 32).filterMap fun g =>
      let r := p.group g
      if r.members.any fun m => m.1 == pos then some { group := g, talkers := r.talkers, waiters := r.waiters } else none }

/-- READ_POSITION (R46). -/
def readPositionBody (pos : Nat) (p : Part) : Answered :=
  if 24 ≤ pos then p.refuse .badValue
  else { part := p, result := .ok, info := .position (p.positionReport pos) }

def execReadPosition (tag pos : Nat) (s : State) : Host.Outcome State Fault Refusal :=
  .next (commandRun (.readPosition tag pos) (readPositionBody pos) s)

end Sys2Proof.Machine
end

