-- ==== Sys2Proof/Machine/LinkOps.lean ====
section
/-! DEFINITION. The control link: the receiver (R197, R198), what CP makes of a complete frame (R199), the transmitter (R202),
breaks (R198), ACK_CONDITION (R204), STATUS (R205), RESTART (R206), and the byte layouts (R208). -/

namespace Sys2Proof

/-- FREE VALUE (log 2). The bytes of a reply, after its result byte, whose layout the manual does not give: those that stand
before its k-th field of a given form, and after the last. -/
opaque Config.replyFields : Machine.ReplyKind → Machine.Result → Machine.Info → Nat → List Byte

/-- FREE VALUE (log 2). The same of a notice, after its header. -/
opaque Config.noticeFields : Machine.Notice → Nat → List Byte

end Sys2Proof

namespace Sys2Proof.Machine

open Sys2Proof

/-! ### ACK_CONDITION, STATUS, RESTART -/

/-- ACK_CONDITION (R204). -/
def ackConditionBody (n : Nat) (p : Part) : Answered :=
  if 19 ≤ n then p.refuse .badValue
  else
    let c := vget p.conds n {}
    let latch := c.latch && c.cause
    { part := { p with conds := vset p.conds n { c with latch := latch } }, result := .ok, info := .cond latch c.cause }

def execAckCondition (tag n : Nat) (s : State) : Host.Outcome State Fault Refusal :=
  .next (commandRun (.ackCondition tag n) (ackConditionBody n) s)

/-- STATUS's report (R205). -/
def statusReport (l : Link) (p : Part) : StatusReport :=
  { start := l.start, floorTime := p.tu.floorTime, synced := p.tu.synced
    highways := p.au.highways.toList.map Highway.state
    ready := p.cu.recorderReady, mixUsed := p.mx.used, taps := p.cu.openTaps, journal := p.cu.used
    schedule := p.tu.schedule.length, ops := p.ops.toList.countP Option.isSome
    conds := p.conds.toList
    crcErrors := l.crcErrors, gaps := l.gaps, overruns := l.overruns
    slips := p.au.highways.toList.map Highway.slips
    noticesLost := l.noticesLost }

/-- AU clears the slip counts with the report (R205). -/
def Part.clearSlips (p : Part) : Part :=
  { p with au := { p.au with highways := p.au.highways.map fun (w : Highway) => { w with slips := 0 } } }

/-- CP clears its counts and notices-lost with the report (R205). -/
def Link.clearCounts (l : Link) : Link := { l with crcErrors := 0, gaps := 0, overruns := 0, noticesLost := false }

/-- STATUS (R205). -/
def statusBody (l : Link) (p : Part) : Answered :=
  { part := p.clearSlips, result := .ok, info := .status (statusReport l p) }

def execStatus (tag : Nat) (s : State) : Host.Outcome State Fault Refusal :=
  .next (hostRun (.status tag) statusBody Link.clearCounts s)

/-- From the moment CP takes a RESTART it takes no further command and discards every byte (R206). -/
def Link.takeRestart (l : Link) : Link := { l with phase := .restartTaken, rxBuf := [] }

/-- RESTART (R206). -/
def execRestart (tag : Nat) (s : State) : Host.Outcome State Fault Refusal :=
  .next (hostRun (.restart tag) (fun _ p => p.accept) Link.takeRestart s)

/-! ### Complete frames -/

/-- CP answers a frame it does not hand over (R199 checks 1 to 3). -/
def State.turnAway (s : State) (tag : Nat) (kind : ReplyKind) (r : Result) : State :=
  { s with link := s.link.replyAtOnce tag kind r .none }

/-- The host commands, one KIND each (R199, R208). -/
def allCmds : List Cmd :=
  [.defineLine, .removeLine, .definePosition, .setDeviceGain, .setTrim, .defineSpeaker, .defineGroup, .cueRoute, .setGuard,
   .digest, .readLine, .readPosition, .seize, .leave, .hold, .ring, .setPrivacy, .releaseLine, .speakerListen, .speakerGain,
   .speakerTalk, .groupTalk, .refreshOutput, .readMix, .cueLoad, .cueStart, .cueStop, .cueConfig, .readCue]
  ++ [.journalFetch, .journalRelease, .readTap, .setTime, .steer, .schedule, .cancel, .readSchedule, .probe, .meterOpen,
      .meterClose, .readFault, .clearFault, .ackCondition, .status, .restart]

/-- The commands take their KIND codes one after the other, each a free choice among the codes left (log 2). -/
def assignKinds : List Cmd → List Nat → List (Cmd × Nat)
  | [], _ => []
  | c :: cs, left =>
    let k := left.getD (Config.kindChoice c % left.length) 0
    (c, k) :: assignKinds cs (left.filter (· ≠ k))

/-- Each command with its KIND, within 0x01 to 0x5F and no two alike (R208). -/
def kindTable : List (Cmd × Nat) := assignKinds allCmds ((List.range 95).map (· + 1))

/-- The KIND of a command (R208). -/
def cmdKind (c : Cmd) : Byte := BitVec.ofNat 8 ((kindTable.lookup c).getD 0)

/-- The command a KIND names (R199 check 2). -/
def cmdOfKind (kind : Byte) : Option Cmd := (kindTable.find? fun x => x.2 == kind.toNat).map Prod.fst

/-- How many elements the list in a command's payload holds; a CUE_LOAD's blocks are its count operand (R16, R133, R170). -/
def listLength (c : Cmd) (payload : List Byte) : Nat :=
  match c with
  | .cueLoad => (Config.operand c payload 3).toNat
  | .defineGroup | .schedule => Config.listCount c payload
  | _ => 0

/-- The number that `width` bytes of a payload carry from a place on, high byte first (R208). -/
def fieldAt (payload : List Byte) (place width : Nat) : Nat := natBE ((payload.drop place).take width)

/-- The payload length is right for the command (R199 check 3). A command without arguments has none (R20, R195, R205, R206),
a SET_TIME is a floor time of 6 bytes (R167, R208), and a JOURNAL_RELEASE a sequence number of 4 (R160; log 2). Of the other
commands the manual gives no length; those that carry a floor time, a sequence number or samples have room for them. -/
def payloadFits (c : Cmd) (count n : Nat) : Bool :=
  match c with
  | .status | .restart | .digest | .readFault | .clearFault => n == 0
  | .setTime => n == 6
  | .journalRelease => n == 4
  | .schedule => Config.lengthFits c count n && decide (Config.fieldPlace c + 6 ≤ n)
  | .journalFetch => Config.lengthFits c count n && decide (Config.fieldPlace c + 4 ≤ n)
  | .cueLoad => Config.lengthFits c count n && decide (Config.fieldPlace c + 64 * count ≤ n)
  | .defineLine | .removeLine | .definePosition | .setDeviceGain | .setTrim | .defineSpeaker | .defineGroup | .cueRoute
  | .setGuard | .readLine | .readPosition | .seize | .leave | .hold | .ring | .setPrivacy | .releaseLine | .speakerListen
  | .speakerGain | .speakerTalk | .groupTalk | .refreshOutput | .readMix | .cueStart | .cueStop | .cueConfig | .readCue
  | .readTap | .steer | .cancel | .readSchedule | .probe | .meterOpen | .meterClose | .ackCondition =>
    Config.lengthFits c count n

/-- The command that a payload of the right length carries, under its tag; none for a press or release choice out of its range
(R75, R80). Floor times, sequence numbers and samples are the payload's own bytes, high byte first (R208); the other operands
are free values (log 2). -/
def carried (c : Cmd) (tag : Nat) (payload : List Byte) : Option Instr :=
  let z := Config.operand c payload
  let x := fun k => (z k).toNat
  let o := fun k => if z k < 0 then none else some (x k)
  let place := Config.fieldPlace c
  let count := listLength c payload
  match c with
  | .defineLine =>
    some (.defineLine tag (x 0) (x 1) (BitVec.ofNat 24 (x 2)) (x 3) (o 4) (o 5) (x 6) (x 7) (x 8))
  | .removeLine => some (.removeLine tag (x 0))
  | .definePosition => some (.definePosition tag (x 0)
      { enabled := x 1, rxA := x 2, rxB := x 3, micA := x 4, micB := x 5, micS := x 6, sideA := x 7, sideB := x 8,
        trimEA := z 9, trimEB := z 10, trimSL := z 11, trimSR := z 12, duck := x 13, ringOut := x 14, audible := x 15,
        recallTime := x 16 })
  | .setDeviceGain => some (.setDeviceGain tag (x 0) (x 1) (x 2) (x 3))
  | .setTrim => some (.setTrim tag (x 0) (x 1) (z 2))
  | .defineSpeaker => some (.defineSpeaker tag (x 0) (x 1) (x 2) (x 3) (x 4) (x 5) (x 6) (x 7))
  | .defineGroup => some (.defineGroup tag (x 0) ((List.range count).map fun k => (x (2 * k + 3), x (2 * k + 4))) (x 1) (x 2))
  | .cueRoute => some (.cueRoute tag (x 0) (o 1) (x 2) (x 3))
  | .setGuard => some (.setGuard tag (x 0) (x 1))
  | .digest => some (.digest tag)
  | .readLine => some (.readLine tag (x 0))
  | .readPosition => some (.readPosition tag (x 0))
  | .seize => some (.seize tag (x 0) (x 1) (x 2))
  | .leave => some (.leave tag (x 0) (x 1) (x 2))
  | .hold => some (.hold tag (x 0) (x 1) (x 2))
  | .ring => some (.ring tag (x 0))
  | .setPrivacy => some (.setPrivacy tag (x 0) (x 1) (x 2))
  | .releaseLine => some (.releaseLine tag (x 0))
  | .speakerListen => some (.speakerListen tag (x 0) (x 1) (x 2))
  | .speakerGain => some (.speakerGain tag (x 0) (x 1) (x 2))
  | .speakerTalk => match x 2 with
    | 0 => some (.speakerTalkPress tag (x 0) (x 1))
    | 1 => some (.speakerTalkRelease tag (x 0) (x 1))
    | _ => none
  | .groupTalk => match x 2 with
    | 0 => some (.groupTalkPress tag (x 0) (x 1))
    | 1 => some (.groupTalkRelease tag (x 0) (x 1))
    | _ => none
  | .refreshOutput => some (.refreshOutput tag (x 0))
  | .readMix => some (.readMix tag (x 0))
  | .cueLoad => some (.cueLoad tag (x 0) (x 1) (x 2) count
      ((List.range (32 * count)).map fun j => BitVec.ofNat 16 (fieldAt payload (place + 2 * j) 2)))
  | .cueStart => some (.cueStart tag (x 0) (x 1) (x 2))
  | .cueStop => some (.cueStop tag (x 0))
  | .cueConfig => some (.cueConfig tag (x 0) (x 1))
  | .readCue => some (.readCue tag (x 0))
  | .journalFetch => some (.journalFetch tag (BitVec.ofNat 32 (fieldAt payload place 4)) (x 0))
  | .journalRelease => some (.journalRelease tag (BitVec.ofNat 32 (natBE payload)))
  | .readTap => some (.readTap tag (x 0))
  | .setTime => some (.setTime tag (BitVec.ofNat 48 (natBE payload)))
  | .steer => some (.steer tag (z 0))
  | .schedule =>
    some (.schedule tag (BitVec.ofNat 48 (fieldAt payload place 6)) (x 0) ((List.range count).map fun k => x (k + 1)))
  | .cancel => some (.cancel tag (x 0))
  | .readSchedule => some (.readSchedule tag (x 0))
  | .probe => some (.probe tag (x 0) (x 1))
  | .meterOpen => some (.meterOpen tag (x 0) (x 1))
  | .meterClose => some (.meterClose tag (x 0))
  | .readFault => some (.readFault tag)
  | .clearFault => some (.clearFault tag)
  | .ackCondition => some (.ackCondition tag (x 0))
  | .status => some (.status tag)
  | .restart => some (.restart tag)

/-- What CP makes of the payload of a frame whose KIND is a command's (R199 check 3). -/
def readFrame (c : Cmd) (tag : Nat) (payload : List Byte) : FrameReading :=
  if payloadFits c (listLength c payload) payload.length = false then .badLength
  else match carried c tag payload with
    | none => .badChoice
    | some i => .command i

/-- A KIND of the command range (R199 check 2, R208). -/
def commandKind (kind : Byte) : Bool := decide (1 ≤ kind.toNat ∧ kind.toNat ≤ 0x5F)

/-- CP takes a complete frame whose KIND names a command (R199 check 3 and after). A RESTART is CP's own and is taken with its
frame (R206); a press or release choice out of its range is answered BAD_VALUE in the command's place (R200; log 15). -/
def State.takeCommand (s : State) (c : Cmd) (tag : Byte) (payload : List Byte) : State :=
  let t := tag.toNat
  match readFrame c t payload with
  | .badLength => s.turnAway t (.cmd c) .badFormat
  | .badChoice => s.turnAway t (.cmd c) .badValue
  | .command i =>
    if formatOk i = false then s.turnAway t (.cmd c) .badFormat
    else if c = .restart then
      let s1 := s.turnAway t (.cmd c) .ok
      { s1 with link := s1.link.takeRestart }
    else { s with link := s.link.holdPlace t (.cmd c), part := s.part.raise i }

/-- CP takes a complete frame (R199). -/
def State.takeFrame (s : State) (kind tag : Byte) (payload : List Byte) : State :=
  if 8 ≤ s.link.replies.length then
    { s with link := { s.link with overruns := min 65535 (s.link.overruns + 1) } }
  else if tag = 0 then s.turnAway 0 (.raw kind) .badFormat
  else if commandKind kind = false then s.turnAway tag.toNat (.raw kind) .unknownKind
  else match cmdOfKind kind with
    | none => s.turnAway tag.toNat (.raw kind) .unknownKind
    | some c => s.takeCommand c tag payload

/-! ### The receiver -/

/-- SYNC (R196). -/
def syncByte : Byte := 0xA5

/-- The receiver resolves the bytes it holds, from a SYNC or in hunt (R197): complete frames are taken, a LEN out of range or
a failed CRC resumes the hunt after the SYNC, and an unfinished frame waits. While a RESTART is taken, and before READY, every
byte is discarded (R206, R207). `fuel` bounds the bytes looked at. -/
def State.scan : Nat → List Byte → State → State
  | 0, _, s => s
  | fuel + 1, bytes, s =>
    if s.link.phase ≠ .running then { s with link := { s.link with rxBuf := [] } }
    else match bytes with
      | [] => { s with link := { s.link with rxBuf := [] } }
      | b :: rest =>
        if b ≠ syncByte then State.scan fuel rest s
        else match rest with
          | [] => { s with link := { s.link with rxBuf := bytes } }
          | len :: body =>
            if len.toNat < 2 ∨ 250 < len.toNat then State.scan fuel rest s
            else if body.length < len.toNat + 2 then { s with link := { s.link with rxBuf := bytes } }
            else
              let inner := body.take len.toNat
              let crc := (body.drop len.toNat).take 2
              let after := body.drop (len.toNat + 2)
              if bytesBE 2 (crc16 (len :: inner)).toNat = crc then
                State.scan fuel after (s.takeFrame (inner.getD 0 0) (inner.getD 1 0) (inner.drop 2))
              else
                State.scan fuel rest { s with link := { s.link with crcErrors := min 65535 (s.link.crcErrors + 1) } }

/-- Bytes reach the receiver; in a break it waits, and before a start is over it discards them (R198, R206, R207). -/
def State.receive (s : State) (bytes : List Byte) : State :=
  if s.link.inBreak ∨ s.link.phase ≠ .running then s
  else
    let all := s.link.rxBuf ++ bytes
    State.scan (all.length + 1) all s

/-- FRAME_RECEIVED (R197, R199). -/
def execFrameReceived (bytes : List Byte) (s : State) : Host.Outcome State Fault Refusal := .next (s.receive bytes)

/-- LEN_OUT_OF_RANGE (R197). -/
def execLenOutOfRange (bytes : List Byte) (s : State) : Host.Outcome State Fault Refusal :=
  .next (State.receive s bytes)

/-- The gap ends a partial frame: it is discarded and counted (R197). -/
def Link.dropPartial (l : Link) : Link :=
  if l.rxBuf = [] then l else { l with rxBuf := [], gaps := min 65535 (l.gaps + 1) }

/-- FRAME_GAP_TIMEOUT (R197). -/
def execFrameGapTimeout (bytes : List Byte) (s : State) : Host.Outcome State Fault Refusal :=
  .next { s.receive bytes with link := (s.receive bytes).link.dropPartial }

/-! ### The transmitter and breaks -/

/-- The frame is the reply of the RESTART that was taken. -/
def TxFrame.endsForRestart : TxFrame → Bool
  | .reply _ k r _ => k == .cmd .restart && r == .ok
  | .notice _ => false

/-- The restart begins (R206). -/
def State.beginRestart (s : State) : State :=
  { s with link := { s.link with phase := .restarting }, part := s.part.raise .restartBegin }

/-- The end of a transmitted frame (R202, R203, R206). A held op result takes the place a departing notice frees in this same
step, where R203 lets another block's notice come first (DESIGN CHOICE, log 33). -/
def State.transmitDone (s : State) : State :=
  match s.link.tx with
  | none => s
  | some f =>
    let s1 := { s with link := { s.link with tx := none } }
    if s.link.phase = .restartTaken ∧ f.endsForRestart then s1.beginRestart
    else State.flushOps { s1 with link := s1.link.pump }

/-- TRANSMIT_FRAME_DONE (R202, R203, R206). -/
def execTransmitFrameDone (s : State) : Host.Outcome State Fault Refusal := .next s.transmitDone

/-- A place that holds the answer of a RESTART. -/
def Place.restartReply (x : Place) : Bool :=
  x.kind == .cmd .restart && match x.answer with
    | some (r, _) => r == .ok
    | none => false

/-- A break empties both queues; a place whose command's owner has yet to answer stays held (R198). -/
def Link.break (l : Link) : Link :=
  { l with rxBuf := [], inBreak := true, replies := l.replies.filter fun x => x.answer.isNone, notices := [],
           noticesLost := true }

/-- A break is detected (R198, R203); one that empties the queue of the RESTART reply begins the restart at once (R206). -/
def State.linkBreak (s : State) : State :=
  let s1 := { s with link := s.link.break }
  if s.link.phase = .restartTaken ∧ s.link.replies.any Place.restartReply then s1.beginRestart
  else State.flushOps { s1 with link := s1.link.pump }

/-- LINK_BREAK (R198, R203, R206). -/
def execLinkBreak (s : State) : Host.Outcome State Fault Refusal := .next s.linkBreak

/-- BREAK_END (R198). -/
def execBreakEnd (s : State) : Host.Outcome State Fault Refusal :=
  .next { s with link := { s.link with inBreak := false } }

/-! ### Layouts -/

/-- The frame envelope around a KIND, a TAG and a payload (R196, R197, R208). -/
def frameBytes (kind tag : Byte) (payload : List Byte) : List Byte :=
  let body := kind :: tag :: payload
  let len : Byte := BitVec.ofNat 8 body.length
  [syncByte, len] ++ body ++ bytesBE 2 (crc16 (len :: body)).toNat

/-- The notice payload header: serial and floor time (R208). -/
def QNotice.headerBytes (q : QNotice) : List Byte := bytesBE 1 q.serial ++ bytesBE 6 q.time

/-- The KIND a reply answers (R199). -/
def ReplyKind.byte : ReplyKind → Byte
  | .cmd c => cmdKind c
  | .raw b => b

/-- The fields of a reply whose form the manual gives: floor times, journal entries, sequence numbers and call references
(R159 to R161, R167, R176, R195, R205, R208), in the order in which its rule names them (log 2). -/
def Info.laidOut : Info → List (List Byte)
  | .oldTime t => [bytesBE 6 t]
  | .fetched r => r.entries ++ (r.oldest.map (bytesBE 4)).toList
  | .released _ oldest _ => (oldest.map (bytesBE 4)).toList
  | .tap (some (t, _)) => [bytesBE 4 t.ref, bytesBE 6 t.openTime]
  | .schedule r => bytesBE 6 r.floorTime :: r.entries.map fun e => bytesBE 6 e.due
  | .fault r => (r.fault.map fun f => bytesBE 6 f.time).toList
  | .status r => [bytesBE 6 r.floorTime]
  | .none | .granted | .waiting _ | .loaded _ _ _ | .pointer _ _ | .window _ | .replaced _ | .scheduled _ _ | .refreshed _ _
  | .level _ _ | .cond _ _ | .line _ | .position _ | .mix _ | .cue _ | .tap Option.none => []

/-- The fields of a notice whose form the manual gives: READY's floor time and identity (R207), ACTION_DONE's result code and
run time (R173, R200), OP_DONE's result byte and a digest's CRC (R22, R203), and FAULT's floor time (R194), in the order in
which its rule names them (log 2). -/
def Notice.laidOut : Notice → List (List Byte)
  | .ready _ t _ vendor part revision => [bytesBE 6 t, [vendor], bytesBE 2 part, [revision]]
  | .actionDone _ _ r _ t => [[BitVec.ofNat 8 r.code], bytesBE 6 t]
  | .opDone _ _ r => [BitVec.ofNat 8 r.code] :: match r with
    | .ok crc => [bytesBE 4 crc.toNat]
    | .disturbed | .pass _ _ | .fail _ _ | .aborted => []
  | .fault _ _ _ t _ _ => [bytesBE 6 t]
  | .lineState .. | .lead .. | .ringBurst .. | .holdRecall .. | .activity .. | .talk .. | .condition _ => []

/-- Fields of a given form, with free bytes before the k-th and after the last, of which there are at most `room` in all. -/
def weave (free : Nat → List Byte) : Nat → Nat → List (List Byte) → List Byte
  | room, k, [] => (free k).take room
  | room, k, x :: xs => (free k).take room ++ x ++ weave free (room - ((free k).take room).length) (k + 1) xs

/-- What stands in `limit` bytes: the fields of a given form, and free bytes in what room they leave. -/
def fieldBytes (limit : Nat) (free : Nat → List Byte) (given : List (List Byte)) : List Byte :=
  (weave free (limit - given.flatten.length) 0 given).take limit

/-- What a frame's payload holds after a reply's result byte or a notice's header; LEN leaves room for 250 bytes in all
(R208; log 2). -/
def TxFrame.fields : TxFrame → List Byte
  | .reply _ k r i => fieldBytes 247 (Config.replyFields k r i) i.laidOut
  | .notice q => fieldBytes 241 (Config.noticeFields q.body) q.body.laidOut

/-- The frame as the TX line carries it: SYNC, LEN, KIND OR 0x80 with the command's tag and the result byte for a reply, the
notice's KIND with TAG 0 and its header for a notice, the fields, and the CRC (R196, R199 to R201, R208). -/
def TxFrame.bytes (f : TxFrame) : List Byte :=
  match f with
  | .reply t k r _ => frameBytes (k.byte ||| 0x80) (BitVec.ofNat 8 t) (BitVec.ofNat 8 r.code :: f.fields)
  | .notice q => frameBytes q.body.kind 0 (q.headerBytes ++ f.fields)

/-- The bytes of the frame the transmitter is sending; none while it is idle (R196, R202). -/
def Link.txBytes (l : Link) : List Byte :=
  match l.tx with
  | some f => f.bytes
  | none => []

end Sys2Proof.Machine
end

