-- ==== Sys2Proof/Machine/Start.lean ====
section
/-! DEFINITION. Starts: POWER_ON (R207) and RESTART_BEGIN (R163, R206), with the power-on and restart values of every block. -/

namespace Sys2Proof.Machine

open Sys2Proof

/-! ### READY and the conditions -/

/-- The conditions of a start: every latch clear, then each cause as its owner gives it (R204). -/
def Part.startConds (p : Part) : Part :=
  { p with conds := Vector.ofFn fun i => { cause := p.ownerCause i.val, latch := p.ownerCause i.val } }

/-- The causes present, ascending, the order in which their notices follow READY: R204, R206 and R207 give none (DESIGN
CHOICE, log 41). -/
def Part.causes (p : Part) : List Nat := (List.range 19).filter fun n => p.ownerCause n

/-- READY (R207). -/
def readyNotice (cause : StartCause) (t : TU) : Notice :=
  .ready cause t.floorTime t.synced 0x4D 4860 Config.siliconRevision

/-- CP queues READY and then the CONDITION notices of the causes present, the first with serial 0 (R206, R207). -/
def Link.announce (l : Link) (cause : StartCause) (p : Part) : Link :=
  (readyNotice cause p.tu :: p.causes.map Notice.condition).foldl (Link.queueNotice p.tu.floorTime) l

/-! ### POWER_ON and READY -/

/-- Every block at its power-on values (R9, R10, R14, R16 to R18, R22, R41, R43, R74, R79, R91, R92, R110, R129, R143, R164,
R165, R178, R184, R185, R189, R191, R195, R203): every latch is clear, and CP knows the causes as their owners have them
(R204). RRDY stands at the level it has then until the first frame samples it (log 6). -/
def powerOnPart (rrdy : Bool) : Part :=
  let p : Part := { cu := { recorderReady := rrdy }, au := { rrdy := rrdy, rrdyFresh := true } }
  { p with conds := Vector.ofFn fun i => { cause := p.ownerCause i.val, latch := false } }

/-- POWER_ON (R207): power-on begins. The reference frames that follow do their whole work, and READY is queued on the one
that brings floor time to `readyAt`, which the manual only bounds (DESIGN CHOICE, log 24). -/
def execPowerOn (baud1 baud0 rrdy : Bool) (readyAt : Nat) (s : State) : Host.Outcome State Fault Refusal :=
  .next { s with part := powerOnPart rrdy, link := { baud1 := baud1, baud0 := baud0, phase := .starting readyAt } }

/-- CP queues the power-on READY (R204, R207): both queues are empty and the serial 0 when it does, so that READY is the first
notice; what was handed to CP before goes unsent (DESIGN CHOICE, log 24). -/
def State.ready (s : State) : State :=
  let p := s.part.startConds
  { s with
    part := p
    link := Link.announce { s.link with phase := .running, start := .power, rxBuf := [], replies := [], notices := [],
                                        serial := 0 } .power p }

/-- A reference frame brings READY one frame nearer (R207). -/
def State.countStart (s : State) : State :=
  match s.link.phase with
  | .starting (n + 2) => { s with link := { s.link with phase := .starting (n + 1) } }
  | .starting _ => s.ready
  | .running | .restartTaken | .restarting => s

/-! ### RESTART_BEGIN -/

/-- One occupant leaves for the restart: relation, then CU (R163). -/
def restartLeave (n : Nat) (p : Part) (o : Occupant) : Part := (p.detach n o).cuLeave n .restart o

/-- All occupancy is cleared, lines ascending, occupants in their order (R163, R206 step 1). -/
def Part.clearOccupancy (p : Part) : Part :=
  (List.range 192).foldl (fun q n => (q.line n).occupants.foldl (restartLeave n) q) p

/-- What was handed over and survives a restart: the offers, and the events of AU, the scrubber and the clock. -/
def survives : Instr → Bool
  | .faultOffer _ | .rrdyChange _ | .highwayWindowEnd _ _ | .highwayGapLoss _ | .lsuHighwayLoss _ | .lsuHighwayReturn _
  | .lineHighwayLost _ | .lineHighwayRestored _ | .steeringCorrection | .scrubMixCheck _ | .scrubLineCheck _ => true
  | _ => false

/-- A port's restart values: sampling goes on on a highway that is not LOST (R41). -/
def Port.restarted (q : Port) (lost : Bool) : Port := { sampling := !lost, sentBit := q.sentBit }

/-- The words of the Mix Store in use. -/
def MX.usedWords (m : MX) : List Nat := m.lists.toList.flatMap fun l => l.map Entry.index

/-- MX's restart values: the store empty (R91, R92, R110); its words in use were written as free ones. -/
def MX.restarted (m : MX) : MX :=
  { damage := m.damage.filter fun d => d.index ∉ m.usedWords, outputs := m.outputs, placed := m.placed }

/-- The restart values of every block (R9, R10, R14, R16 to R18, R22, R41, R43, R74, R79, R91, R92, R110, R129, R143, R163,
R165, R177, R178, R184, R185, R189, R191, R195, R203). -/
def Part.restarted (p : Part) : Part :=
  Part.startConds
    { ports := p.ports.mapIdx fun i q => q.restarted ((p.highway (hwOf i)).state == .lost)
      mx := p.mx.restarted
      cu := { p.cu with taps := Vector.replicate 32 none, answer := none }
      tu := { p.tu with steerRem := 0, steerCount := 0, schedule := [], handed := [] }
      au := { p.au with probes := [], meters := Vector.replicate 4 none }
      events := p.events.filter survives }

/-- CP after a restart: empty queues, counts 0, then READY (R206). A frame whose sending had begun is still finished (R202).
-/
def restartLink (l : Link) (p : Part) : Link :=
  Link.announce { baud1 := l.baud1, baud0 := l.baud0, inBreak := l.inBreak, start := .restart, tx := l.tx } .restart p

/-- The restart, as one event (R206). -/
def State.restartBegin (s : State) : State :=
  let p := (Part.clearOccupancy { s.part with events := s.part.events.erase .restartBegin }).restarted
  { s with part := p, link := restartLink s.link p }

/-- RESTART_BEGIN (R206): it is reached only once a restart is under way. -/
def execRestartBegin (s : State) : Host.Outcome State Fault Refusal :=
  .next (if s.link.phase = .restarting then s.restartBegin
    else { s with part := { s.part with events := s.part.events.erase .restartBegin } })

end Sys2Proof.Machine
end

