-- ==== Sys2Proof/Machine/Speaker.lean ====
section
/-! DEFINITION. Speaker channels and intercom groups: SPEAKER_LISTEN (R72), SPEAKER_GAIN (R73), talk on a hoot (R75 to R78),
the talk arbiter (R79 to R83), idle revoke (R84 to R86), TALK (R87) and activity events (R84, R89). -/

namespace Sys2Proof.Machine

open Sys2Proof

/-! ### Listening -/

/-- SPEAKER_LISTEN (R72). -/
def speakerListenBody (pos k onOff : Nat) (p : Part) : Answered :=
  match onOffOf onOff with
  | none => p.refuse .badValue
  | some v =>
    if 24 ≤ pos ∨ 12 ≤ k then p.refuse .badValue
    else
      let s := p.slot pos k
      if s.listen = v then p.accept
      else
        let p1 := p.setSlot pos k { s with listen := v }
        if s.target ≠ .none ∧ (p.position pos).enabled then
          match p1.edit? [sideOutput pos s.side] with
          | none => p.refuse .mixFull
          | some p2 => (p2.handPriority pos).accept
        else p1.accept

def execSpeakerListen (tag pos k onOff : Nat) (s : State) : Host.Outcome State Fault Refusal :=
  .next (commandRun (.speakerListen tag pos k onOff) (speakerListenBody pos k onOff) s)

/-- A slot is listening (R71). -/
def Part.listening (p : Part) (pos k : Nat) : Bool :=
  (p.slot pos k).listen && (p.slot pos k).target != .none && (p.position pos).enabled

/-- SPEAKER_GAIN (R73). -/
def speakerGainBody (pos k code : Nat) (p : Part) : Answered :=
  if 24 ≤ pos ∨ 12 ≤ k then p.refuse .badValue
  else
    let s := p.slot pos k
    let p1 := p.setSlot pos k { s with gain := clampCode code }
    let p2 := if p.listening pos k then p1.edit [sideOutput pos s.side] else p1
    p2.disturb.accept

def execSpeakerGain (tag pos k code : Nat) (s : State) : Host.Outcome State Fault Refusal :=
  .next (commandRun (.speakerGain tag pos k code) (speakerGainBody pos k code) s)

/-! ### The arbiter -/

/-- A member's priority flag (R16, R81). -/
def Group.priorityOf (g : Group) (pos : Nat) : Bool := g.members.any fun m => m.1 == pos && m.2

/-- The position is a member of the group (R75 check 4). -/
def Group.hasMember (g : Group) (pos : Nat) : Bool := g.members.any fun m => m.1 == pos

/-- The place a request takes in the waiting list: after the last priority waiter for a priority member, at the end for any
other (R81). -/
def Group.placeFor (g : Group) (pos : Nat) : Nat :=
  if g.priorityOf pos then g.waiters.length - (g.waiters.reverse.takeWhile fun w => !g.priorityOf w).length
  else g.waiters.length

/-- The position enters the waiting list (R81). -/
def Group.enqueue (g : Group) (pos : Nat) : Group :=
  let k := g.placeFor pos
  { g with waiters := g.waiters.take k ++ pos :: g.waiters.drop k }

/-- Every talker's idle count returns to 0 (R82 to R84). -/
def Group.resetIdle (g : Group) : Group := { g with talkers := g.talkers.map fun t => { t with idle := 0 } }

/-- A position joins the talker list with idle count 0 (R80, R82). -/
def Group.grant (g : Group) (pos : Nat) : Group := { g with talkers := g.talkers ++ [{ position := pos, idle := 0 }] }

/-- A talk slot is freed: the talker leaves, the head waiter is granted, and the counts return to 0 if the waiting list is
left empty (R82, R85). -/
def Group.free (g : Group) (pos : Nat) : Group :=
  let g1 := { g with talkers := g.talkers.filter fun t => t.position ≠ pos }
  match g1.waiters with
  | [] => g1.resetIdle
  | w :: ws =>
    let g2 := ({ g1 with waiters := ws }).grant w
    if ws.isEmpty then g2.resetIdle else g2

/-- A waiter withdraws (R83). -/
def Group.withdraw (g : Group) (pos : Nat) : Group :=
  let g1 := { g with waiters := g.waiters.filter (· ≠ pos) }
  if g1.waiters.isEmpty then g1.resetIdle else g1

/-- TALK, with the group's counts after the event (R87). -/
def Part.noteTalk (p : Part) (g pos : Nat) (e : TalkEvent) (place : Option Nat) : Part :=
  p.note (.talk g pos e place (p.group g).talkers.length (p.group g).waiters.length)

/-- The SK entry of a position is written. -/
def Part.setSk (p : Part) (pos : Nat) (e : Option SkEntry) : Part := p.setPosition pos { p.position pos with sk := e }

/-- A request that has passed the checks reaches the arbiter (R80, R81). -/
def groupRequest (p : Part) (pos g : Nat) (through : Option Nat) : Answered :=
  let r := p.group g
  if r.talkers.length < 4 then
    let p1 := (p.setGroup g (r.grant pos)).setSk pos (some { target := .group g, through := through, talking := true })
    { part := (p1.handTalkers g).noteTalk g pos .granted none, result := .ok, info := .granted }
  else if r.waiters.length < 8 then
    let k := r.placeFor pos
    let p1 := (p.setGroup g (r.enqueue pos)).setSk pos (some { target := .group g, through := through, talking := false })
    { part := p1.noteTalk g pos .waiting (some k), result := .ok, info := .waiting k }
  else p.refuse .groupFull

/-- A talker's slot is freed by release or revoke: the lists, the SK entries, the talker list at MX, and the notices (R82,
R85). -/
def Part.freeFloor (p : Part) (g pos : Nat) (why : TalkEvent) : Part :=
  let r := p.group g
  let p1 := (p.setGroup g (r.free pos)).setSk pos none
  match r.waiters with
  | [] => (p1.handTalkers g).noteTalk g pos why none
  | w :: _ =>
    let p2 := p1.setSk w ((p1.position w).sk.map fun e => { e with talking := true })
    ((p2.handTalkers g).noteTalk g pos why none).noteTalk g w .granted none

/-- The position is on the group's talker list. -/
def Group.isTalker (g : Group) (pos : Nat) : Bool := g.talkers.any fun t => t.position == pos

/-- A release of a group talk: a talker frees its slot, a waiter withdraws (R82, R83). -/
def groupReleaseTalk (p : Part) (pos g : Nat) : Answered :=
  if (p.group g).isTalker pos then (p.freeFloor g pos .released).accept
  else
    (((p.setGroup g ((p.group g).withdraw pos)).setSk pos none).noteTalk g pos .withdrawn none).accept

/-! ### Talk on a hoot -/

/-- The SK entry names a target (R75 check 5). -/
def Position.skNames (q : Position) (t : SkTarget) : Bool :=
  match q.sk with
  | some e => e.target == t
  | none => false

/-- A press on a hoot, from the check of its line record on (R76). -/
def hootPress (pos k n : Nat) (p : Part) : Answered :=
  if (p.line n).state = .outOfService then p.refuse .outOfService
  else if 4 ≤ (p.line n).occupants.length then p.refuse .lineFull
  else
    let p1 := (p.attach n (pos, .sk)).setSk pos (some { target := .hoot n, through := some k, talking := true })
    let p2 := p1.setSlot pos k { p1.slot pos k with talking := true }
    match p2.edit? [sendOutput n] with
    | none => p.refuse .mixFull
    | some p3 => ((p3.handPort n).noteLine n .joined).accept

/-- The target of a slot as an SK entry names it. -/
def Target.sk? : Target → Option SkTarget
  | .none => Option.none
  | .hoot n => some (.hoot n)
  | .group g => some (.group g)

/-- Checks 4 to 6 of R75 and what a press does from there (R75, R76, R80). -/
def talkPress (pos : Nat) (through : Option Nat) (t : SkTarget) (p : Part) : Answered :=
  let q := p.position pos
  let member := match t with
    | .hoot _ => true
    | .group g => (p.group g).hasMember pos
  if member = false then p.refuse .notMember
  else if q.skNames t then p.accept
  else if q.sk.isSome then p.refuse .deviceBusy
  else match t with
    | .hoot n => hootPress pos (through.getD 0) n (p.useLine n)
    | .group g => groupRequest p pos g through

/-- SPEAKER_TALK press (R75, R76, R80). -/
def speakerTalkPressBody (pos k : Nat) (p : Part) : Answered :=
  if 24 ≤ pos ∨ 12 ≤ k then p.refuse .badValue
  else if (p.position pos).enabled = false then p.refuse .positionOff
  else match (p.slot pos k).target.sk? with
    | none => p.refuse .wrongState
    | some t => talkPress pos (some k) t p

def execSpeakerTalkPress (tag pos k : Nat) (s : State) : Host.Outcome State Fault Refusal :=
  .next (commandRun (.speakerTalkPress tag pos k) (speakerTalkPressBody pos k) s)

/-- A release of SK talk on a hoot (R77). -/
def hootRelease (pos n : Nat) (p : Part) : Answered :=
  if (p.position pos).skNames (.hoot n) then
    ((p.depart n [(pos, .sk)] id .deviceIdle).noteLine n .left).accept
  else p.accept

/-- A release acts on the target if the SK entry names it; otherwise it is answered OK and nothing changes (R77, R82). -/
def talkRelease (pos : Nat) (t : SkTarget) (p : Part) : Answered :=
  if (p.position pos).skNames t then
    match t with
    | .hoot n => hootRelease pos n (p.useLine n)
    | .group g => groupReleaseTalk p pos g
  else p.accept

/-- SPEAKER_TALK release (R77, R82, R83). -/
def speakerTalkReleaseBody (pos k : Nat) (p : Part) : Answered :=
  if 24 ≤ pos ∨ 12 ≤ k then p.refuse .badValue
  else match (p.slot pos k).target.sk? with
    | none => p.accept
    | some t => talkRelease pos t p

def execSpeakerTalkRelease (tag pos k : Nat) (s : State) : Host.Outcome State Fault Refusal :=
  .next (commandRun (.speakerTalkRelease tag pos k) (speakerTalkReleaseBody pos k) s)

/-- GROUP_TALK press (R80). -/
def groupTalkPressBody (pos g : Nat) (p : Part) : Answered :=
  if 24 ≤ pos ∨ 32 ≤ g then p.refuse .badValue
  else if (p.position pos).enabled = false then p.refuse .positionOff
  else talkPress pos none (.group g) p

def execGroupTalkPress (tag pos g : Nat) (s : State) : Host.Outcome State Fault Refusal :=
  .next (commandRun (.groupTalkPress tag pos g) (groupTalkPressBody pos g) s)

/-- GROUP_TALK release (R82, R83). -/
def groupTalkReleaseBody (pos g : Nat) (p : Part) : Answered :=
  if 24 ≤ pos ∨ 32 ≤ g then p.refuse .badValue else talkRelease pos (.group g) p

def execGroupTalkRelease (tag pos g : Nat) (s : State) : Host.Outcome State Fault Refusal :=
  .next (commandRun (.groupTalkRelease tag pos g) (groupTalkReleaseBody pos g) s)

/-! ### Idle revoke and activity -/

/-- The idle revoke time in frames (R84, R85). -/
def Group.revokeFrames (g : Group) : Nat := 16000 * g.revoke

/-- A talker's idle count has reached the revoke time (R85). -/
def Group.overdue (g : Group) (pos : Nat) : Bool :=
  decide (0 < g.revoke) && g.talkers.any fun t => t.position == pos && t.idle == g.revokeFrames

/-- A revoke, if the talker's count still stands at the revoke time (R85, R86). -/
def idleRevokeBody (g pos : Nat) (p : Part) : Part :=
  if (p.group g).overdue pos then p.freeFloor g pos .revoked else p

/-- IDLE_REVOKE (R85, R86). -/
def execIdleRevoke (g pos : Nat) (s : State) : Host.Outcome State Fault Refusal :=
  .next (eventRun (.idleRevoke g pos) (idleRevokeBody g pos) s)

/-- The position whose SK microphone a source is (R1). -/
def skOf (source : Nat) : Option Nat :=
  if 192 ≤ source ∧ source < 264 ∧ (source - 192) % 3 = 2 then some ((source - 192) / 3) else none

/-- A talker whose microphone becomes active has its count set to 0 (R84, R86). -/
def Group.heard (g : Group) (pos : Nat) : Group :=
  { g with talkers := g.talkers.map fun t => if t.position = pos then { t with idle := 0 } else t }

/-- A source is watched: the target of a listening slot at some position (R89). -/
def Part.watched (p : Part) (source : Nat) : Bool :=
  (List.range 24).any fun pos => (listeningSlots p pos).any fun x => x.2 == source

/-- CC takes an activity event (R84, R89). -/
def activityEventBody (source : Nat) (active : Bool) (p : Part) : Part :=
  let p1 := { p with cc := { p.cc with activity := vset p.cc.activity source active } }
  let p2 := match skOf source, active with
    | some pos, true => { p1 with cc := { p1.cc with groups := p1.cc.groups.map fun (g : Group) => g.heard pos } }
    | _, _ => p1
  if p2.watched source then p2.note (.activity source active) else p2

/-- ACTIVITY_EVENT (R84, R89). -/
def execActivityEvent (source : Nat) (active : Bool) (s : State) : Host.Outcome State Fault Refusal :=
  .next (eventRun (.activityEvent source active) (activityEventBody source active) s)

end Sys2Proof.Machine
end

