-- ==== Sys2Proof/Machine/Time.lean ====
section
/-! DEFINITION. Floor time and timed actions: SET_TIME (R167, R174), STEER and its corrections (R168), the Action Schedule
(R169 to R171, R175, R176), and the running of due actions (R166, R172, R173). -/

namespace Sys2Proof.Machine

open Sys2Proof

/-! ### Setting and steering -/

/-- The schedule after a step: every entry at or below the new time is late (R167 step 4, R174). -/
def markLate (now : Nat) (l : List SchedEntry) : List SchedEntry :=
  l.map fun e => if e.due ≤ now then { e with late := true } else e

/-- SET_TIME (R167). -/
def setTimeBody (time : BitVec 48) (p : Part) : Answered :=
  let old := p.tu.floorTime
  let p1 := { p with tu := { p.tu with
    floorTime := time.toNat, synced := true, steerRem := 0, steerCount := 0,
    schedule := markLate time.toNat p.tu.schedule } }
  { part := p1.timeStep old, result := .ok, info := .oldTime old }

def execSetTime (tag : Nat) (time : BitVec 48) (s : State) : Host.Outcome State Fault Refusal :=
  .next (commandRun (.setTime tag time) (setTimeBody time) s)

/-- STEER (R168). -/
def steerBody (delta : Int) (p : Part) : Answered :=
  { part := { p with tu := { p.tu with steerRem := clampInt (-16000) 16000 delta, steerCount := 0 } }, result := .ok,
    info := .replaced p.tu.steerRem }

def execSteer (tag : Nat) (delta : Int) (s : State) : Host.Outcome State Fault Refusal :=
  .next (commandRun (.steer tag delta) (steerBody delta) s)

/-! ### The frame at TU -/

/-- A steering correction falls on the next frame (R168). -/
def TU.correctionDue (t : TU) : Bool := t.steerRem != 0 && t.steerCount == 255

/-- The advance of one frame (R166 step 1, R168). -/
def TU.advance (t : TU) : TU :=
  if t.correctionDue then
    if 0 < t.steerRem then
      { t with floorTime := (t.floorTime + 2) % 2 ^ 48, steerRem := t.steerRem - 1, steerCount := 0 }
    else { t with steerRem := t.steerRem + 1, steerCount := 0 }
  else
    { t with floorTime := (t.floorTime + 1) % 2 ^ 48, steerCount := if t.steerRem = 0 then 0 else t.steerCount + 1 }

/-- The entries at the front of the schedule whose due time has come (R172): plain numbers are compared (R166), so the overdue
entries of a floor time of 2⁴⁸ − 1 wait for the count after the wrap, where R174 has them run on the next frame (DESIGN
CHOICE, log 44). -/
def TU.dueEntries (t : TU) : List SchedEntry := t.schedule.takeWhile fun e => decide (e.due ≤ t.floorTime)

/-- The due entries of this frame; none from the moment a restart begins (R206). -/
def Part.dueNow (p : Part) : List SchedEntry := if .restartBegin ∈ p.events then [] else p.tu.dueEntries

/-- Due entries leave the schedule and are handed over, each an event of its own (R166 step 2, R172). -/
def Part.handDue (p : Part) : Part :=
  let t := p.tu
  let due := p.dueNow
  { p with
    tu := { t with schedule := t.schedule.drop due.length, handed := t.handed ++ due.map fun e => (e, t.floorTime) }
    events := p.events ++ due.map fun _ => .actionDue }

/-- One frame of TU, no correction waiting. -/
def Part.tick (p : Part) : Part := { p with tu := p.tu.advance }.handDue

/-- TU's part of a reference frame: a frame on which a correction falls is that correction's event (R166, R168). -/
def Part.frameTime (p : Part) : Part :=
  if p.tu.correctionDue then { p with tu := { p.tu with frameWaits := true } }.raise .steeringCorrection else p.tick

/-- The frame that waits is taken; a STEER or SET_TIME taken first leaves it a plain one (R168). -/
def steeringCorrectionBody (p : Part) : Part :=
  if p.tu.frameWaits then { p with tu := { p.tu with frameWaits := false } }.tick else p

/-- STEERING_CORRECTION (R168). -/
def execSteeringCorrection (s : State) : Host.Outcome State Fault Refusal :=
  .next (eventRun .steeringCorrection steeringCorrectionBody s)

/-! ### The schedule -/

/-- The id after another: 65535 goes to 1 (R169). -/
def idAfter (n : Nat) : Nat := if 65535 ≤ n then 1 else n + 1

/-- The first id from `n` on that no entry of the schedule holds (R169); the schedule holds at most 32. -/
def freeId (held : List Nat) : Nat → Nat → Nat
  | 0, n => n
  | fuel + 1, n => if n ∈ held then freeId held fuel (idAfter n) else n

/-- An entry goes after every entry due at or before it (R171). -/
def insertEntry (e : SchedEntry) : List SchedEntry → List SchedEntry
  | [] => [e]
  | x :: rest => if x.due ≤ e.due then x :: insertEntry e rest else e :: x :: rest

/-- An accepted entry: its id, its late flag, its place (R169 to R171). -/
def TU.place (t : TU) (due : Nat) (a : Action) : TU :=
  let sched := insertEntry { id := t.nextId, due := due, action := a, late := decide (due ≤ t.floorTime) } t.schedule
  { t with schedule := sched, nextId := freeId (sched.map SchedEntry.id) 33 (idAfter t.nextId) }

/-- SCHEDULE (R170). -/
def scheduleBody (due : BitVec 48) (action : Nat) (args : List Nat) (p : Part) : Answered :=
  if (actionArity action).isNone then p.refuse .badValue
  else if 32 ≤ p.tu.schedule.length then p.refuse .scheduleFull
  else if due.toNat ≤ p.tu.floorTime ∧ 16000 < p.tu.floorTime - due.toNat then p.refuse .tooLate
  else
    { part := { p with tu := p.tu.place due.toNat { kind := action, args := args } }, result := .ok,
      info := .scheduled p.tu.nextId (decide (due.toNat ≤ p.tu.floorTime)) }

def execSchedule (tag : Nat) (due : BitVec 48) (action : Nat) (args : List Nat) (s : State) :
    Host.Outcome State Fault Refusal :=
  .next (commandRun (.schedule tag due action args) (scheduleBody due action args) s)

/-- CANCEL (R175). -/
def cancelBody (id : Nat) (p : Part) : Answered :=
  if p.tu.schedule.any fun e => e.id == id then
    Part.accept { p with tu := { p.tu with schedule := p.tu.schedule.filter fun e => e.id ≠ id } }
  else p.refuse .notFound

def execCancel (tag id : Nat) (s : State) : Host.Outcome State Fault Refusal :=
  .next (commandRun (.cancel tag id) (cancelBody id) s)

/-- READ_SCHEDULE (R176). -/
def readScheduleBody (start : Nat) (p : Part) : Answered :=
  if 32 ≤ start then p.refuse .badValue
  else
    { part := p, result := .ok,
      info := .schedule { floorTime := p.tu.floorTime, synced := p.tu.synced, remainder := p.tu.steerRem,
                          count := p.tu.schedule.length, entries := (p.tu.schedule.drop start).take 12 } }

def execReadSchedule (tag start : Nat) (s : State) : Host.Outcome State Fault Refusal :=
  .next (commandRun (.readSchedule tag start) (readScheduleBody start) s)

/-! ### Running actions -/

/-- The owning block takes an action as its command (R169, R173). -/
def runAction (a : Action) (p : Part) : Answered :=
  match a.kind, a.args with
  | 0, [n, pos, dev] => seizeBody n pos dev p
  | 1, [n] => releaseLineBody n p
  | 2, [pos, k, v] => speakerListenBody pos k v p
  | 3, [pos, k, code] => speakerGainBody pos k code p
  | 4, [cls, level] => setGuardBody cls level p
  | 5, [k, mode, block] => cueStartBody k mode block p
  | 6, [k] => cueStopBody k p
  | _, _ => p.refuse .badValue

/-- The oldest action handed over is taken; its ACTION_DONE goes where the reply would, ahead of the notices of the event
(R172, R173). Actions of different blocks are taken in schedule order too, where R172 asks for none (DESIGN CHOICE, log 31).
-/
def actionDueBody (p : Part) : Part :=
  match p.tu.handed with
  | [] => p
  | (e, at_) :: rest =>
    let a := runAction e.action { p with tu := { p.tu with handed := rest } }
    { a.part with outbox := .actionDone e.id e.action.kind a.result e.late at_ :: a.part.outbox }

/-- ACTION_DUE (R172, R173). -/
def execActionDue (s : State) : Host.Outcome State Fault Refusal := .next (eventRun .actionDue actionDueBody s)

end Sys2Proof.Machine
end

