-- ==== Sys2Proof/Machine/Settle.lean ====
section
/-! DEFINITION. Taking what waits: each event or command handed to a block and not yet taken runs as its own row, oldest first,
before the next reference frame does its work (R29, R47, R111, R172; log 11). -/

namespace Sys2Proof.Machine

open Sys2Proof

/-- The state a row leads to. -/
def nextOf (o : Host.Outcome State Fault Refusal) (s : State) : State :=
  match o with
  | .next t => t
  | .fault _ | .refused _ => s

/-- A waiting event or command is taken as its row. Rows that no block ever hands to another never wait. -/
def takeRow (i : Instr) (s : State) : State :=
  let run := fun (o : Host.Outcome State Fault Refusal) => nextOf o s
  match i with
  | .defineLine t n k a p r h se e d => run (execDefineLine t n k a p r h se e d s)
  | .removeLine t n => run (execRemoveLine t n s)
  | .definePosition t p a => run (execDefinePosition t p a s)
  | .setDeviceGain t p d w c => run (execSetDeviceGain t p d w c s)
  | .setTrim t p o x => run (execSetTrim t p o x s)
  | .defineSpeaker t p k tk ta sd c pr li => run (execDefineSpeaker t p k tk ta sd c pr li s)
  | .defineGroup t g m c r => run (execDefineGroup t g m c r s)
  | .cueRoute t r p o c => run (execCueRoute t r p o c s)
  | .setGuard t c l => run (execSetGuard t c l s)
  | .digest t => run (execDigest t s)
  | .digestFinish => run (execDigestFinish s)
  | .readLine t n => run (execReadLine t n s)
  | .readPosition t p => run (execReadPosition t p s)
  | .seize t n p d => run (execSeize t n p d s)
  | .leave t n p d => run (execLeave t n p d s)
  | .hold t n p d => run (execHold t n p d s)
  | .ring t n => run (execRing t n s)
  | .setPrivacy t n p v => run (execSetPrivacy t n p v s)
  | .releaseLine t n => run (execReleaseLine t n s)
  | .speakerListen t p k v => run (execSpeakerListen t p k v s)
  | .speakerGain t p k c => run (execSpeakerGain t p k c s)
  | .speakerTalkPress t p k => run (execSpeakerTalkPress t p k s)
  | .speakerTalkRelease t p k => run (execSpeakerTalkRelease t p k s)
  | .groupTalkPress t p g => run (execGroupTalkPress t p g s)
  | .groupTalkRelease t p g => run (execGroupTalkRelease t p g s)
  | .idleRevoke g p => run (execIdleRevoke g p s)
  | .refreshOutput t o => run (execRefreshOutput t o s)
  | .readMix t o => run (execReadMix t o s)
  | .cueLoad t k a v c x => run (execCueLoad t k a v c x s)
  | .cueStart t k m b => run (execCueStart t k m b s)
  | .cueStop t k => run (execCueStop t k s)
  | .cueConfig t k w => run (execCueConfig t k w s)
  | .readCue t k => run (execReadCue t k s)
  | .cueBlockBoundary k => run (execCueBlockBoundary k s)
  | .journalFetch t f c => run (execJournalFetch t f c s)
  | .journalRelease t u => run (execJournalRelease t u s)
  | .readTap t c => run (execReadTap t c s)
  | .setTime t x => run (execSetTime t x s)
  | .steer t d => run (execSteer t d s)
  | .steeringCorrection => run (execSteeringCorrection s)
  | .schedule t d a x => run (execSchedule t d a x s)
  | .cancel t n => run (execCancel t n s)
  | .readSchedule t n => run (execReadSchedule t n s)
  | .actionDue => run (execActionDue s)
  | .probe t n w => run (execProbe t n w s)
  | .probePhaseChange n => run (execProbePhaseChange n s)
  | .probeEnd n => run (execProbeEnd n s)
  | .meterOpen t m x => run (execMeterOpen t m x s)
  | .meterCountFull m => run (execMeterCountFull m s)
  | .meterClose t m => run (execMeterClose t m s)
  | .readFault t => run (execReadFault t s)
  | .clearFault t => run (execClearFault t s)
  | .ackCondition t n => run (execAckCondition t n s)
  | .status t => run (execStatus t s)
  | .restart t => run (execRestart t s)
  | .restartBegin => run (execRestartBegin s)
  | .debouncedChange n v => run (execDebouncedChange n v s)
  | .riseEvent n => run (execRiseEvent n s)
  | .fallEvent n => run (execFallEvent n s)
  | .burstEvent n l => run (execBurstEvent n l s)
  | .outgoingBurstEnd n => run (execOutgoingBurstEnd n s)
  | .recallDeadlineExpiry n => run (execRecallDeadlineExpiry n s)
  | .ringTimeout n => run (execRingTimeout n s)
  | .detectorHoldExpiry x => run (execDetectorHoldExpiry x s)
  | .activityEvent x v => run (execActivityEvent x v s)
  | .highwayWindowEnd h a => run (execHighwayWindowEnd h a s)
  | .highwayGapLoss h => run (execHighwayGapLoss h s)
  | .lsuHighwayLoss h => run (execLsuHighwayLoss h s)
  | .lsuHighwayReturn h => run (execLsuHighwayReturn h s)
  | .lineHighwayLost h => run (execLineHighwayLost h s)
  | .lineHighwayRestored h => run (execLineHighwayRestored h s)
  | .rrdyChange v => run (execRrdyChange v s)
  | .scrubMixCheck w => run (execScrubMixCheck w s)
  | .scrubLineCheck n => run (execScrubLineCheck n s)
  | .faultOffer o => run (execFaultOffer o s)
  | .powerOn _ _ _ _ | .linkBreak | .frameReceived _ | .frameGapTimeout _ | .transmitFrameDone | .referenceFrame _
  | .highwayFrameArrival _ _ | .lenOutOfRange _ | .breakEnd =>
    { s with part := { s.part with events := s.part.events.erase i } }

/-- Everything that waits is taken, oldest first, what it raises in its turn included. `fuel` bounds how many. -/
def State.settle : Nat → State → State
  | 0, s => s
  | fuel + 1, s => match s.part.events with
    | [] => s
    | e :: _ => State.settle fuel (takeRow e s)

/-- More than one frame, its consequences and 8 held commands can raise. -/
def settleFuel : Nat := 8192

end Sys2Proof.Machine
end

