-- ==== Sys2Proof/Machine/Frame.lean ====
section
/-! DEFINITION. The reference frame (R112): leads (R25, R34), cue players (R130), the mix with its detectors, ducking, ramps,
buses and sums (R113 to R126), probes and meters (R186, R187, R189), highway counts (R179), RRDY (R184), floor time (R166),
CC's deadlines and idle counts (R42, R84), the digest (R20) and the scrubber (R191). -/

namespace Sys2Proof.Machine

open Sys2Proof

/-! ### Damage -/

/-- Damage strikes a word (section 10.5). -/
def Part.strike (p : Part) : Upset → Part
  | .mix i dbl syn =>
    if i < 3072 then
      { p with mx := { p.mx with
        damage := (p.mx.damage.filter fun d => d.index ≠ i) ++ [{ index := i, double := dbl, syndrome := syn }] } }
    else p
  | .line n dbl syn reads =>
    p.setLine n { p.line n with damage := some (if dbl then .double syn reads else .single syn) }

/-! ### Sources -/

/-- A line's receive on this frame (R113). -/
def lineReceive (p : Part) (n : Nat) : Int :=
  let w := p.highway (hwOf n)
  if (p.line n).state = .outOfService ∨ w.state = .lost then 0 else (vget w.current.samples (n % 48) 0).toInt

/-- The sources' samples on a frame: the blocks with the frame's microphones (R113). -/
structure Sources where
  part : Part
  mics : Vector Sample 72

/-- The value of a source other than a group bus (R113). -/
def Sources.value (x : Sources) (s : Nat) : Int :=
  if s < 192 then lineReceive x.part s
  else if s < 264 then (vget x.mics (s - 192) 0).toInt
  else if s < 296 then 0
  else (x.part.player (s - 296)).offered.toInt

/-! ### Detectors -/

/-- The envelope after a frame (R124). -/
def envelopeStep (env mag : Nat) : Nat :=
  if env < mag then env + (mag - env) / 8
  else if env - mag < 1024 then env - min 1 (env - mag)
  else env - (env - mag) / 1024

/-- A detector's frame (R124, R125). A below count that reaches 3200 waits there for the hold's end, which is an event. -/
def Detector.frame (d : Detector) (mag : Nat) : Detector :=
  let env := envelopeStep d.envelope mag
  if 328 ≤ env then { envelope := env, active := true, below := 0 }
  else { d with envelope := env, below := if d.active then min 3200 (d.below + 1) else d.below }

/-- The events of a detector's frame (R125). -/
def detectorEvents (source : Nat) (old new : Detector) : List Instr :=
  (if !old.active && new.active then [.activityEvent source true] else [])
    ++ (if !old.held && new.held then [.detectorHoldExpiry source] else [])

/-- The activity of a source after stage 2 (R114, R125, R126). -/
def MX.shows (m : MX) (source : Nat) : Bool :=
  if source < 264 then (m.detector source).shows
  else if source < 296 then vget m.groupActive (source - 264) false
  else vget m.cueActive (source - 296) false

/-- A group's activity: some talker's SK microphone shows ACTIVE (R88, R126). -/
def MX.groupShows (m : MX) (g : Nat) : Bool :=
  (vget m.talkers g []).any fun t => m.shows (micSource t.position .sk)

/-- Stage 2: detectors, then the groups (R112, R124 to R126). Several sources' activity events of one frame are raised in
ascending source order, where R112 gives none (DESIGN CHOICE, log 42). -/
def Part.stage2 (p : Part) (mics : Vector Sample 72) : Part :=
  let x : Sources := { part := p, mics := mics }
  let old := p.mx.detectors
  let new := old.mapIdx fun s d => d.frame (magnitude (x.value s))
  let m1 := { p.mx with detectors := new }
  let groups := p.mx.groupActive.mapIdx fun g _ => m1.groupShows g
  let evs := (List.range 264).flatMap fun s => detectorEvents s (vget old s {}) (vget new s {})
  let gevs := (List.range 32).flatMap fun g =>
    if vget groups g false = vget p.mx.groupActive g false then [] else [.activityEvent (264 + g) (vget groups g false)]
  { p with mx := { m1 with groupActive := groups }, events := p.events ++ evs ++ gevs }

/-- Stage 3: ducking (R114). -/
def MX.stage3 (m : MX) : MX :=
  { m with positions := m.positions.map fun (q : MixPosition) =>
    { q with ducking := q.busy || q.priority.any fun s => m.shows s } }

/-! ### Coefficients -/

/-- The trim of an output: none on sends and recorder channels (R115). -/
def MX.trimOf (m : MX) (out : Nat) : Int :=
  if out < 96 then
    let q := vget m.positions (out / 4) {}
    match out % 4 with
    | 0 => q.trimEA
    | 1 => q.trimEB
    | 2 => q.trimSL
    | _ => q.trimSR
  else 0

/-- The duck of an entry of an output (R115). -/
def MX.duckOf (m : MX) (out : Nat) (duckable : Bool) : Nat :=
  let q := vget m.positions (out / 4) {}
  if out < 96 ∧ duckable ∧ q.ducking then q.duck else 0

/-- The effective code (R115). -/
def effectiveCode (base : Nat) (trim : Int) (duck : Nat) : Nat :=
  if base = 0 then 0 else (clampInt 1 76 (base + trim - duck)).toNat

/-- One ramp step (R117). -/
def ramp (target applied : Nat) : Nat :=
  if applied ≤ target + 64 ∧ target ≤ applied + 64 then target
  else if applied < target then applied + 64
  else applied - 64

/-- Stage 4 for one entry: poisoned entries are passed over (R115 to R117). -/
def MX.rampEntry (m : MX) (out : Nat) (e : Entry) : Entry :=
  if e.poisoned then e
  else
    let target := coefOf (effectiveCode e.code (m.trimOf out) (m.duckOf out e.duckable))
    { e with target := target, applied := ramp target e.applied }

/-- MX checks the words of the entries it reads: every unpoisoned entry in use (R123, R192). -/
def Part.useChecks (p : Part) : Part :=
  (p.mx.damage.map MixDamage.index).foldl (fun q i => if (q.mx.owner? i).isSome then checkMix q i .use else q) p

/-- Stage 4: the checks, then the targets and ramps of every list (R112, R115 to R118, R123). -/
def Part.stage4 (p : Part) : Part :=
  let q := p.useChecks
  { q with mx := { q.mx with lists := q.mx.lists.mapIdx fun out l => l.map fun e => q.mx.rampEntry out e } }

/-! ### Group buses -/

/-- Stage 5: the talker coefficients (R119). -/
def Part.stage5 (p : Part) : Part :=
  let step := fun (g : Nat) (t : BusTalker) => { t with coef := ramp (coefOf (p.group g).talkCode) t.coef }
  { p with mx := { p.mx with talkers := p.mx.talkers.mapIdx fun g l => l.map (step g) } }

/-- A talker's term (R120). -/
def Sources.term (x : Sources) (t : BusTalker) : Int := x.value (micSource t.position .sk) * t.coef

/-- A group's bus as a position hears it, its own term taken out of the exact sum; with no position, as one that is not a
talker (R120). -/
def Sources.bus (x : Sources) (g : Nat) (pos : Option Nat) : Int :=
  let ts := x.part.busTalkers g
  let own := ts.filter fun t => pos == some t.position
  clampBus (round12 ((ts.map x.term).sum - (own.map x.term).sum))

/-! ### Outputs -/

/-- The position that owns an output. -/
def outputOwner (out : Nat) : Option Nat := if out < 96 then some (out / 4) else none

/-- The value of a source as an output hears it (R113, R120). -/
def Sources.heard (x : Sources) (out s : Nat) : Int :=
  if 264 ≤ s ∧ s < 296 then x.bus (s - 264) (outputOwner out) else x.value s

/-- The sum of an output's list (R121). -/
def Sources.sum (x : Sources) (out : Nat) : Int :=
  ((x.part.mixList out).map fun e => if e.poisoned then 0 else x.heard out e.source * e.applied).sum

/-- The probe whose samples take the place of an output's sum (R122). -/
def Part.probeOn (p : Part) (out : Nat) : Option Probe :=
  if 96 ≤ out ∧ out < 288 then p.probeOf (out - 96) else none

/-- An output's sample and whether it saturates (R122). -/
def Sources.output (x : Sources) (out : Nat) : Int × Bool :=
  match x.part.probeOn out with
  | some r => (r.tone, false)
  | none =>
    let r := round12 (x.sum out)
    (limit16 r, limit16 r != r)

/-- Stage 6: the 320 outputs and the clip flags (R121, R122). -/
def Part.stage6 (p : Part) (mics : Vector Sample 72) : Part :=
  let x : Sources := { part := p, mics := mics }
  let outs : Vector (Int × Bool) 320 := Vector.ofFn fun i => x.output i.val
  { p with mx := { p.mx with
    outputs := outs.map fun o => toSample o.1
    clip := p.mx.clip.mapIdx fun i c => c || (vget outs i (0, false)).2 } }

/-- MX's frame (R112). -/
def Part.mixFrame (p : Part) (mics : Vector Sample 72) : Part :=
  let p1 := p.stage2 mics
  let p2 := { p1 with mx := p1.mx.stage3 }
  p2.stage4.stage5.stage6 mics

/-! ### The other blocks' frames -/

/-- AU takes each highway's current frame (R179 step 1). -/
def Part.takeFrames (p : Part) : Part := { p with au := { p.au with highways := p.au.highways.map Highway.take } }

/-- The raw lead bit of a port on this frame (R25). -/
def rawLead (p : Part) (n : Nat) : Bool := vget (p.highway (hwOf n)).current.leads (n % 48) false

/-- LSU's frame (R25, R26, R32, R34). Several ports' debounced changes of one frame are raised in ascending port number, where
R29 gives no order (DESIGN CHOICE, log 32). -/
def Part.leadFrame (p : Part) : Part :=
  { p with
    ports := p.ports.mapIdx fun n q => q.frame (rawLead p n)
    events := p.events ++ (List.range 192).flatMap fun n => (p.port n).frameEvents n (rawLead p n) }

/-- CUE's frame (R130). Several players' boundaries of one frame are raised in ascending player number, where R131 gives no
order (DESIGN CHOICE, log 38). -/
def Part.cueFrame (p : Part) : Part :=
  { p with
    cue := { players := p.cue.players.map Player.frame }
    events := p.events ++ (List.range 8).flatMap fun k => if (p.player k).atEnd then [.cueBlockBoundary k] else [] }

/-- The probes' frame (R186, R187). Several probes' events of one frame are raised in the order in which the probes were
started, where R186 and R187 give none (DESIGN CHOICE, log 40). -/
def Part.probeFrame (p : Part) : Part :=
  { p with
    au := { p.au with probes := p.au.probes.map fun r => r.frame (lineReceive p r.line) }
    events := p.events ++ p.au.probes.flatMap Probe.frameEvents }

/-- The value a meter measures (R189). -/
def Sources.metered (x : Sources) (s : Nat) : Int := if 264 ≤ s ∧ s < 296 then x.bus (s - 264) none else x.value s

/-- The meters' frame (R189). -/
def Part.meterFrame (p : Part) (mics : Vector Sample 72) : Part :=
  let x : Sources := { part := p, mics := mics }
  { p with
    au := { p.au with meters := p.au.meters.map fun (o : Option Meter) => o.map fun m => m.frame (x.metered m.source) }
    events := p.events ++ (List.range 4).flatMap fun k => meterEvents k (vget p.au.meters k none) }

/-- The highways' counts (R179, R180). Several highways' window ends and gap losses of one frame are raised in ascending
highway number, where the rules give no order (DESIGN CHOICE, log 39). -/
def Part.highwayFrame (p : Part) : Part :=
  { p with
    au := { p.au with highways := p.au.highways.map Highway.count }
    events := p.events ++ (List.range 4).flatMap fun h => (p.highway h).frameEvents h }

/-- A line's deadlines are lowered by 1 (R42). -/
def Line.frame (l : Line) : Line :=
  { l with recallTime := l.recallTime.map (· - 1), ringTimeout := l.ringTimeout.map (· - 1) }

/-- The deadlines that reach 0 on this frame (R42, R54, R56), recall before ring timeout (DESIGN CHOICE, log 35). -/
def Line.frameEvents (l : Line) (n : Nat) : List Instr :=
  (if l.recallTime = some 1 then [.recallDeadlineExpiry n] else []) ++ (if l.ringTimeout = some 1 then [.ringTimeout n] else [])

/-- A group's idle counts on a frame, by CC's record of activity (R84). -/
def Group.frame (g : Group) (active : Nat → Bool) : Group :=
  if g.revoke = 0 then g
  else if g.waiters.isEmpty then g.resetIdle
  else { g with talkers := g.talkers.map fun t =>
    { t with idle := if active (micSource t.position .sk) then 0 else min g.revokeFrames (t.idle + 1) } }

/-- The talkers whose count reaches the revoke time on this frame (R85), in the order of the talker list, where R86 leaves the
order open (DESIGN CHOICE, log 36). -/
def Group.frameEvents (g : Group) (n : Nat) (active : Nat → Bool) : List Instr :=
  if g.revoke = 0 ∨ g.waiters.isEmpty then []
  else g.talkers.filterMap fun t =>
    if active (micSource t.position .sk) = false ∧ t.idle + 1 = g.revokeFrames then some (.idleRevoke n t.position) else none

/-- CC's counts on a frame (R42, R84): deadlines run out in ascending line number, and then talkers in ascending group number,
where the rules give no order (DESIGN CHOICE, logs 35 and 36). -/
def Part.countFrame (p : Part) : Part :=
  let active := fun s => vget p.cc.activity s false
  { p with
    cc := { p.cc with
      lines := p.cc.lines.map Line.frame
      groups := p.cc.groups.map fun (g : Group) => g.frame active }
    events := p.events ++ ((List.range 192).flatMap fun n => (p.line n).frameEvents n)
      ++ (List.range 32).flatMap fun g => (p.group g).frameEvents g active }

/-- The running digest reads one record per frame; the 536th is the digest's finish (R20, R22). -/
def Part.digestFrame (p : Part) : Part :=
  match p.cc.digest with
  | none => p
  | some d => if d.next < 535 then p.digestRead d else p.raise .digestFinish

/-- The scrubber asks the owner of the next word for a check and moves on (R191). -/
def Part.scrubFrame (p : Part) : Part :=
  let k := p.au.scrub
  { p with au := { p.au with scrub := (k + 1) % 3264 } }.raise
    (if k < 3072 then .scrubMixCheck k else .scrubLineCheck (k - 3072))

/-- The work of one reference frame over the blocks, and the damage that strikes before it and after it (section 10.5). -/
def Part.frame (p : Part) (i : FrameInput) : Part :=
  let p1 := (i.upsets.foldl Part.strike p).takeFrames.leadFrame.cueFrame
  let p2 := ((p1.mixFrame i.mics).probeFrame.meterFrame i.mics).highwayFrame
  i.late.foldl Part.strike ((p2.sampleRrdy i.rrdy).frameTime.countFrame.digestFrame).scrubFrame

/-- What waits is taken, then the frame does its work. -/
def State.frame (s : State) (i : FrameInput) : State :=
  let s1 := s.settle settleFuel
  State.finish { s1 with part := s1.part.frame i }

/-- REFERENCE_FRAME (R112 and the rules above); before READY it is one of the frames of the start (R207). -/
def execReferenceFrame (i : FrameInput) (s : State) : Host.Outcome State Fault Refusal := .next (s.frame i).countStart

end Sys2Proof.Machine
end

