-- ==== Sys2Proof/Machine/Dispatch.lean ====
section
/-! DEFINITION. One arm per row of spec/opcode_table.json: each row's meaning. -/

namespace Sys2Proof.Machine

open Sys2Proof

/-- What a command or event does to everything but the queue. -/
def exec (i : Instr) (s : State) : Host.Outcome State Fault Refusal :=
  match i with
  | .powerOn baud1 baud0 rrdy readyAt => Sys2Proof.Machine.execPowerOn baud1 baud0 rrdy readyAt s
  | .linkBreak => Sys2Proof.Machine.execLinkBreak s
  | .frameReceived bytes => Sys2Proof.Machine.execFrameReceived bytes s
  | .frameGapTimeout bytes => Sys2Proof.Machine.execFrameGapTimeout bytes s
  | .transmitFrameDone => Sys2Proof.Machine.execTransmitFrameDone s
  | .defineLine tag line kind appear policy ringCue holdCue sense edge debounce => Sys2Proof.Machine.execDefineLine tag line kind appear policy ringCue holdCue sense edge debounce s
  | .removeLine tag line => Sys2Proof.Machine.execRemoveLine tag line s
  | .definePosition tag position args => Sys2Proof.Machine.execDefinePosition tag position args s
  | .setDeviceGain tag position device which code => Sys2Proof.Machine.execSetDeviceGain tag position device which code s
  | .setTrim tag position output trim => Sys2Proof.Machine.execSetTrim tag position output trim s
  | .defineSpeaker tag position slot targetKind target side code priority listen => Sys2Proof.Machine.execDefineSpeaker tag position slot targetKind target side code priority listen s
  | .defineGroup tag group members talkCode revoke => Sys2Proof.Machine.execDefineGroup tag group members talkCode revoke s
  | .cueRoute tag route player output code => Sys2Proof.Machine.execCueRoute tag route player output code s
  | .setGuard tag cls level => Sys2Proof.Machine.execSetGuard tag cls level s
  | .digest tag => Sys2Proof.Machine.execDigest tag s
  | .digestFinish => Sys2Proof.Machine.execDigestFinish s
  | .readLine tag line => Sys2Proof.Machine.execReadLine tag line s
  | .readPosition tag position => Sys2Proof.Machine.execReadPosition tag position s
  | .seize tag line position device => Sys2Proof.Machine.execSeize tag line position device s
  | .leave tag line position device => Sys2Proof.Machine.execLeave tag line position device s
  | .hold tag line position device => Sys2Proof.Machine.execHold tag line position device s
  | .ring tag line => Sys2Proof.Machine.execRing tag line s
  | .setPrivacy tag line position onOff => Sys2Proof.Machine.execSetPrivacy tag line position onOff s
  | .releaseLine tag line => Sys2Proof.Machine.execReleaseLine tag line s
  | .speakerListen tag position slot onOff => Sys2Proof.Machine.execSpeakerListen tag position slot onOff s
  | .speakerGain tag position slot code => Sys2Proof.Machine.execSpeakerGain tag position slot code s
  | .speakerTalkPress tag position slot => Sys2Proof.Machine.execSpeakerTalkPress tag position slot s
  | .speakerTalkRelease tag position slot => Sys2Proof.Machine.execSpeakerTalkRelease tag position slot s
  | .groupTalkPress tag position group => Sys2Proof.Machine.execGroupTalkPress tag position group s
  | .groupTalkRelease tag position group => Sys2Proof.Machine.execGroupTalkRelease tag position group s
  | .idleRevoke group position => Sys2Proof.Machine.execIdleRevoke group position s
  | .refreshOutput tag output => Sys2Proof.Machine.execRefreshOutput tag output s
  | .readMix tag output => Sys2Proof.Machine.execReadMix tag output s
  | .cueLoad tag player addressing value count samples => Sys2Proof.Machine.execCueLoad tag player addressing value count samples s
  | .cueStart tag player mode block => Sys2Proof.Machine.execCueStart tag player mode block s
  | .cueStop tag player => Sys2Proof.Machine.execCueStop tag player s
  | .cueConfig tag player window => Sys2Proof.Machine.execCueConfig tag player window s
  | .readCue tag player => Sys2Proof.Machine.execReadCue tag player s
  | .cueBlockBoundary player => Sys2Proof.Machine.execCueBlockBoundary player s
  | .journalFetch tag start count => Sys2Proof.Machine.execJournalFetch tag start count s
  | .journalRelease tag upTo => Sys2Proof.Machine.execJournalRelease tag upTo s
  | .readTap tag channel => Sys2Proof.Machine.execReadTap tag channel s
  | .setTime tag time => Sys2Proof.Machine.execSetTime tag time s
  | .steer tag delta => Sys2Proof.Machine.execSteer tag delta s
  | .steeringCorrection => Sys2Proof.Machine.execSteeringCorrection s
  | .schedule tag due action args => Sys2Proof.Machine.execSchedule tag due action args s
  | .cancel tag id => Sys2Proof.Machine.execCancel tag id s
  | .readSchedule tag start => Sys2Proof.Machine.execReadSchedule tag start s
  | .actionDue => Sys2Proof.Machine.execActionDue s
  | .probe tag line window => Sys2Proof.Machine.execProbe tag line window s
  | .probePhaseChange line => Sys2Proof.Machine.execProbePhaseChange line s
  | .probeEnd line => Sys2Proof.Machine.execProbeEnd line s
  | .meterOpen tag meter source => Sys2Proof.Machine.execMeterOpen tag meter source s
  | .meterCountFull meter => Sys2Proof.Machine.execMeterCountFull meter s
  | .meterClose tag meter => Sys2Proof.Machine.execMeterClose tag meter s
  | .readFault tag => Sys2Proof.Machine.execReadFault tag s
  | .clearFault tag => Sys2Proof.Machine.execClearFault tag s
  | .ackCondition tag condition => Sys2Proof.Machine.execAckCondition tag condition s
  | .status tag => Sys2Proof.Machine.execStatus tag s
  | .restart tag => Sys2Proof.Machine.execRestart tag s
  | .restartBegin => Sys2Proof.Machine.execRestartBegin s
  | .referenceFrame input => Sys2Proof.Machine.execReferenceFrame input s
  | .debouncedChange line asserted => Sys2Proof.Machine.execDebouncedChange line asserted s
  | .riseEvent line => Sys2Proof.Machine.execRiseEvent line s
  | .fallEvent line => Sys2Proof.Machine.execFallEvent line s
  | .burstEvent line length => Sys2Proof.Machine.execBurstEvent line length s
  | .outgoingBurstEnd line => Sys2Proof.Machine.execOutgoingBurstEnd line s
  | .recallDeadlineExpiry line => Sys2Proof.Machine.execRecallDeadlineExpiry line s
  | .ringTimeout line => Sys2Proof.Machine.execRingTimeout line s
  | .detectorHoldExpiry source => Sys2Proof.Machine.execDetectorHoldExpiry source s
  | .activityEvent source active => Sys2Proof.Machine.execActivityEvent source active s
  | .highwayFrameArrival highway frame => Sys2Proof.Machine.execHighwayFrameArrival highway frame s
  | .highwayWindowEnd highway arrivals => Sys2Proof.Machine.execHighwayWindowEnd highway arrivals s
  | .highwayGapLoss highway => Sys2Proof.Machine.execHighwayGapLoss highway s
  | .lsuHighwayLoss highway => Sys2Proof.Machine.execLsuHighwayLoss highway s
  | .lsuHighwayReturn highway => Sys2Proof.Machine.execLsuHighwayReturn highway s
  | .lineHighwayLost highway => Sys2Proof.Machine.execLineHighwayLost highway s
  | .lineHighwayRestored highway => Sys2Proof.Machine.execLineHighwayRestored highway s
  | .rrdyChange ready => Sys2Proof.Machine.execRrdyChange ready s
  | .scrubMixCheck index => Sys2Proof.Machine.execScrubMixCheck index s
  | .scrubLineCheck line => Sys2Proof.Machine.execScrubLineCheck line s
  | .faultOffer offer => Sys2Proof.Machine.execFaultOffer offer s
  | .lenOutOfRange bytes => Sys2Proof.Machine.execLenOutOfRange bytes s
  | .breakEnd => Sys2Proof.Machine.execBreakEnd s

end Sys2Proof.Machine
end

