-- ==== Sys2Proof/Safety.lean ====
section
/-! DEFINITION. What the statements speak of: when a host command is taken at once, what an event leaves beside CP's own
queues, which replies and notices the link holds, and the laws that every step keeps. -/

namespace Sys2Proof.Machine

open Sys2Proof

/-! ### When a command is taken -/

/-- The command is taken by its owner in this step (R199): it was handed over, nothing of its owner's waits before it and its
place is held; or it arrives now, in no break, finds a free place, passes CP's checks and no command of its owner waits, a
RESTART being taken with its frame (R206). -/
def State.takes (s : State) (c : Instr) : Bool :=
  match c.host? with
  | none => false
  | some (tag, cmd) =>
    if c ∈ s.part.events then
      !ownerWaiting cmd.owner (s.part.events.takeWhile (· != c))
        && s.link.replies.contains { tag := tag, kind := .cmd cmd, answer := none }
    else
      s.link.phase == .running && !s.link.inBreak && decide (s.link.replies.length < 8) && tag != 0 && formatOk c
        && (cmd == .restart || !ownerWaiting cmd.owner s.part.events)

/-- The part once a waiting event or command has been taken off the list of what is handed over. -/
def Part.took (p : Part) (c : Instr) : Part := { p with events := p.events.erase c }

/-- The state in which the owner of a taken command finds the part: its place is held and it no longer waits. -/
def State.handed (s : State) (c : Instr) : State :=
  match c.host? with
  | none => s
  | some (tag, cmd) =>
    if c ∈ s.part.events then { s with part := s.part.took c } else { s with link := s.link.holdPlace tag (.cmd cmd) }

/-! ### What an event leaves -/

/-- The blocks of the part, apart from CP's op slots and the lists of what is handed over. -/
def Part.blocks (p : Part) : Part :=
  { p with ops := Vector.replicate 4 none, opsDone := [], events := [], early := [], outbox := [] }

/-- The link apart from its two queues, the notice serial, notices-lost and the transmitter. -/
def Link.still (l : Link) : Link :=
  { l with replies := [], notices := [], serial := 0, noticesLost := false, tx := none }

/-- The event that led from `s` to `t` left the part as `p`: every block as `p` has it, the same events handed over, the op
slots as `p` has them unless results waited there, nothing of the link but its queues and its transmitter changed, and the
queue of commands untouched. -/
def Leaves (s t : State) (p : Part) : Prop :=
  t.part.blocks = p.blocks ∧ t.part.events = p.events ∧ (p.opsDone = [] → t.part.ops = p.ops ∧ t.part.opsDone = [])
    ∧ t.link.still = s.link.still ∧ t.pending = s.pending

/-- The reply to a command is queued or being sent. -/
def Replied (t : State) (tag : Nat) (cmd : Cmd) (r : Result) (i : Info) : Prop :=
  t.link.tx = some (.reply tag (.cmd cmd) r i)
    ∨ ({ tag := tag, kind := .cmd cmd, answer := some (r, i) } : Place) ∈ t.link.replies

/-- The command is answered with a result and nothing else of the part changes. -/
def Answers (c : Instr) (s : State) (tag : Nat) (cmd : Cmd) (r : Result) (i : Info) : Prop :=
  ∃ t, exec c s = .next t ∧ Leaves s t (s.part.took c) ∧ Replied t tag cmd r i

/-- A notice with this content is queued or being sent. -/
def Told (t : State) (n : Notice) : Prop :=
  (∃ q ∈ t.link.notices, q.body = n) ∨ ∃ q, t.link.tx = some (.notice q) ∧ q.body = n

/-- No step is under way and the notice queue has room for what one event sends. -/
def State.roomy (s : State) : Prop := s.part.early = [] ∧ s.part.outbox = [] ∧ s.link.notices.length ≤ 60

/-- Beyond line `n` and the positions `ps`, an event that moved the part from `p` to `q` changed no connection: no other
line's record or port, no other position's record, slots or mix copies; and no group, route, guard, digest or activity record,
no talker list, detector, clip flag or output sample at MX, no cue player and no time. -/
def Keeps (p q : Part) (n : Nat) (ps : List Nat) : Prop :=
  (∀ m, m ≠ n → q.line m = p.line m ∧ q.port m = p.port m)
    ∧ (∀ k, k ∉ ps → q.position k = p.position k ∧ q.mixPos k = p.mixPos k ∧ ∀ j, j < 12 → q.slot k j = p.slot k j)
    ∧ q.cc.kinds = p.cc.kinds ∧ q.cc.groups = p.cc.groups ∧ q.cc.routes = p.cc.routes ∧ q.cc.guards = p.cc.guards
    ∧ q.cc.digest = p.cc.digest ∧ q.cc.activity = p.cc.activity
    ∧ q.mx.talkers = p.mx.talkers ∧ q.mx.detectors = p.mx.detectors ∧ q.mx.groupActive = p.mx.groupActive
    ∧ q.mx.cueActive = p.mx.cueActive ∧ q.mx.clip = p.mx.clip ∧ q.mx.outputs = p.mx.outputs
    ∧ q.cue = p.cue ∧ q.tu = p.tu

/-- The lists of the outputs an edit does not name stay as they were (R93, R101). -/
def KeepsLists (p q : Part) (outs : List Nat) : Prop :=
  ∀ o, o ∉ outs → q.mixList o = p.mixList o ∧ vget q.mx.omitted o false = vget p.mx.omitted o false

/-- A condition whose owner hands over a cause (R204): the latch is set by a cause that becomes present. -/
def Cond.hear (x : Cond) (b : Bool) : Cond := { cause := b, latch := x.latch || (b && !x.cause) }

/-- The command asks for the talk of a position in a group, by GROUP_TALK or through a slot tuned to the group. -/
def GroupPress (s : State) (c : Instr) (tag pos g : Nat) (through : Option Nat) (cmd : Cmd) : Prop :=
  (c = .groupTalkPress tag pos g ∧ through = none ∧ cmd = .groupTalk)
    ∨ ∃ k, k < 12 ∧ c = .speakerTalkPress tag pos k ∧ (s.part.slot pos k).target = .group g ∧ through = some k
        ∧ cmd = .speakerTalk

/-- The command gives up the talk of a position in a group. -/
def GroupUnpress (s : State) (c : Instr) (tag pos g : Nat) (cmd : Cmd) : Prop :=
  (c = .groupTalkRelease tag pos g ∧ cmd = .groupTalk)
    ∨ ∃ k, k < 12 ∧ c = .speakerTalkRelease tag pos k ∧ (s.part.slot pos k).target = .group g ∧ cmd = .speakerTalk

/-- The talk slot of a position in group `g` was freed (R82, R85, R88): the head waiter, if there is one, is granted and its
SK entry talks; the idle counts return to 0 if nobody is left waiting; MX has the new talkers, a new one at coefficient 0; and
nothing else of the part changed. -/
def FloorFreed (p q : Part) (g pos : Nat) : Prop :=
  let r := p.group g
  let left := r.talkers.filter fun x => x.position ≠ pos
  let zero := fun (x : Talker) => ({ x with idle := 0 } : Talker)
  let fresh := fun (w : Nat) => ({ position := w, idle := 0 } : Talker)
  (r.waiters = [] → q.group g = { r with talkers := left.map zero })
    ∧ (∀ w ws, r.waiters = w :: ws → q.group g = { r with
        waiters := ws,
        talkers := if ws = [] then (left ++ [fresh w]).map zero else left ++ [fresh w] })
    ∧ (q.busTalkers g).map BusTalker.position = (q.group g).talkers.map Talker.position
    ∧ (∀ b ∈ q.busTalkers g, b ∈ p.busTalkers g ∨ b.coef = 0)
    ∧ (∀ h, h ≠ g → q.group h = p.group h ∧ q.busTalkers h = p.busTalkers h)
    ∧ (pos < 24 → r.waiters.head? ≠ some pos → q.position pos = { p.position pos with sk := none })
    ∧ (∀ w, r.waiters.head? = some w → w ≠ pos → q.position w = { p.position w with
        sk := (p.position w).sk.map fun e => { e with talking := true } })
    ∧ (∀ k, k ≠ pos → r.waiters.head? ≠ some k → q.position k = p.position k)
    ∧ q.cc = { p.cc with groups := q.cc.groups, positions := q.cc.positions }
    ∧ q.mx = { p.mx with talkers := q.mx.talkers }
    ∧ q.ports = p.ports ∧ q.cue = p.cue ∧ q.cu = p.cu ∧ q.tu = p.tu ∧ q.au = p.au ∧ q.conds = p.conds

/-! ### Laws -/

/-- The bounds of the link (R197, R199, R201) and the model's own lists, empty between steps. -/
def State.linkLaw (s : State) : Prop :=
  s.link.replies.length ≤ 8 ∧ s.link.notices.length ≤ 64 ∧ s.link.serial < 256
    ∧ s.link.crcErrors ≤ 65535 ∧ s.link.gaps ≤ 65535 ∧ s.link.overruns ≤ 65535
    ∧ s.part.early = [] ∧ s.part.outbox = []

/-- The numbers a journal's entries carry are consecutive, and the counter follows the newest (R146). -/
def CU.sequenced (c : CU) : Prop :=
  c.seq < 2 ^ 32 ∧ ∀ k, k < c.journal.length →
    ((c.journal[k]?.map JEntry.seq).getD 0 + (c.journal.length - k)) % 2 ^ 32 = c.seq
      ∧ (c.journal[k]?.map JEntry.seq).getD 0 < 2 ^ 32

/-- The law of the journal (R146): the free entries are never fewer than the open taps, the numbers are consecutive, and
between steps CU holds no answer (R149). -/
def CU.law (c : CU) : Prop := c.openTaps + c.used ≤ 1024 ∧ c.answer = none ∧ c.sequenced

/-- The law of the Mix Store (R91): at most 3072 entries are used; a list holds at most 16, ascending by source and so none of
a source twice; each entry has a word of its own; and no coefficient is above the table's largest. -/
def MX.law (m : MX) : Prop :=
  m.used ≤ 3072
    ∧ (∀ o, o < 320 → (vget m.lists o []).length ≤ 16
        ∧ (vget m.lists o []).Pairwise (fun a b => a.source < b.source)
        ∧ ∀ e ∈ vget m.lists o [], e.index < 3072 ∧ e.target ≤ 8173 ∧ e.applied ≤ 8173)
    ∧ ((List.range 320).flatMap fun o => (vget m.lists o []).map Entry.index).Nodup

/-- The ranges of TU's state (R165), and the order and the ids of the schedule (R169). -/
def TU.law (t : TU) : Prop :=
  t.floorTime < 2 ^ 48 ∧ -16000 ≤ t.steerRem ∧ t.steerRem ≤ 16000 ∧ t.steerCount ≤ 255 ∧ t.schedule.length ≤ 32
    ∧ t.schedule.Pairwise (fun a b => a.due ≤ b.due) ∧ 1 ≤ t.nextId ∧ t.nextId ≤ 65535
    ∧ (t.schedule.map SchedEntry.id).Nodup ∧ t.nextId ∉ t.schedule.map SchedEntry.id

/-- The ranges of a highway's state (R178). -/
def Highway.law (w : Highway) : Prop :=
  w.window ≤ 15999 ∧ w.arrivals ≤ 65535 ∧ w.gap ≤ 8 ∧ w.buffer.length ≤ 2 ∧ w.slips ≤ 65535

/-- The ranges of a cue player's pointer and window (R128). -/
def Player.law (q : Player) : Prop := q.block < 64 ∧ q.sample < 32 ∧ 1 ≤ q.window ∧ q.window ≤ 63

/-- The arbiter's bounds (R79): at most 4 talkers and 8 waiters, all of them members. -/
def Group.law (g : Group) : Prop :=
  g.talkers.length ≤ 4 ∧ g.waiters.length ≤ 8
    ∧ (∀ t ∈ g.talkers, g.hasMember t.position = true) ∧ ∀ w ∈ g.waiters, g.hasMember w = true

end Sys2Proof.Machine
end

