-- ==== Sys2Proof/Certificates/Slice0/Obligations.lean ====
section
/-! DEFINITION. The statements for the provers. Each says in its docstring which rule of spec/ it formalises, or which log
entry its choice stands in. -/

open Sys2Proof Sys2Proof.Machine

/-! ### The machine -/

/-- A step runs the command at the front of the queue, with the queue's rest; with nothing waiting the block idles, which is
the model's choice (log 7). -/
def Obligations.StepRunsFrontCommand : Prop :=
  (∀ (c : Instr) (rest : List Instr) (s : State), s.pending = c :: rest → step s = exec c { s with pending := rest })
    ∧ ∀ s : State, s.pending = [] → step s = .next s

/-- No row stops: every command and event leads to a next state from every state, and leaves the queue of commands as it was
(95_what_each_step_holds.md; the queue is the model's, log 7). -/
def Obligations.ExecAnswersNextAndKeepsQueue : Prop :=
  ∀ (c : Instr) (s : State), ∃ t, exec c s = .next t ∧ t.pending = s.pending

/-- R1: the numbers of the sources, and what each stands for in the mix. -/
def Obligations.SourceNumbers : Prop :=
  (∀ pos, micSource pos .ha = 192 + 3 * pos ∧ micSource pos .hb = 192 + 3 * pos + 1 ∧ micSource pos .sk = 192 + 3 * pos + 2)
    ∧ (∀ g, groupSource g = 264 + g) ∧ (∀ k, cueSource k = 296 + k)
    ∧ micSource 7 .sk = 215 ∧ cueSource 3 = 299
    ∧ ∀ (x : Sources),
        (∀ n, n < 192 → ∀ out, x.heard out n = lineReceive x.part n)
        ∧ (∀ pos d out, pos < 24 → x.heard out (micSource pos d) = (vget x.mics (3 * pos + d.num) 0).toInt)
        ∧ (∀ g out, g < 32 → x.heard out (groupSource g) = x.bus g (outputOwner out))
        ∧ ∀ k out, x.heard out (cueSource k) = (x.part.player k).offered.toInt

/-- R2: the numbers of the outputs, and what is derived for each of an enabled position's. -/
def Obligations.OutputNumbers : Prop :=
  (∀ pos, earOutput pos .ha = 4 * pos ∧ earOutput pos .hb = 4 * pos + 1 ∧ sideOutput pos .sl = 4 * pos + 2
      ∧ sideOutput pos .sr = 4 * pos + 3)
    ∧ (∀ n, sendOutput n = 96 + n) ∧ (∀ c, recOutput c = 288 + c)
    ∧ sideOutput 5 .sr = 23 ∧ sendOutput 17 = 113 ∧ recOutput 31 = 319
    ∧ ∀ p : Part,
        (∀ pos, pos < 24 → (p.position pos).enabled = true →
          derive p (earOutput pos .ha) = mergeWants (earWants p pos .ha)
          ∧ derive p (earOutput pos .hb) = mergeWants (earWants p pos .hb)
          ∧ derive p (sideOutput pos .sl) = mergeWants (sideWants p pos .sl)
          ∧ derive p (sideOutput pos .sr) = mergeWants (sideWants p pos .sr))
        ∧ (∀ n, n < 192 → derive p (sendOutput n) = mergeWants (sendWants p n))
        ∧ ∀ c, c < 32 → derive p (recOutput c) = mergeWants (recWants p c)

/-- R158: where a sequence number lies against the held entries. -/
def Obligations.JournalNumbersLocated : Prop :=
  ∀ (c : CU) (x : BitVec 32),
    (c.journal = [] → ∀ k, c.locate x ≠ .held k)
    ∧ (c.journal = [] → c.fetch x 8 = [] ∧ c.freedBy x = 0)
    ∧ ∀ e rest, c.journal = e :: rest → e.seq < 2 ^ 32 → c.used ≤ 1024 →
        let offset := (x.toNat + 4294967296 - e.seq) % 4294967296
        (offset < c.used → c.locate x = .held offset)
        ∧ (2147483648 ≤ offset → c.locate x = .before)
        ∧ (c.used ≤ offset → offset < 2147483648 → c.locate x = .after)

/-! ### Laws every step keeps -/

/-- The bounds of the link hold after every step from a state that meets them: 8 reply places, 64 notices, the serial and the
counts (R197, R199, R201); the model's own lists are empty between steps (log 18). -/
def Obligations.LinkLawKept : Prop := ∀ s t : State, s.linkLaw → step s = .next t → t.linkLaw

/-- The law of the Compliance Journal (R146): every step keeps as many free entries as there are open taps, and the held
entries' numbers consecutive; CU holds an answer only inside a SEIZE (R149). -/
def Obligations.JournalLawKept : Prop := ∀ s t : State, s.part.cu.law → step s = .next t → t.part.cu.law

/-- The law of the Mix Store (R91) is kept by every step: at most 3072 entries, in lists of at most 16, ascending by source so
that none holds a source twice, each entry in a word of its own and with coefficients of at most 8173. -/
def Obligations.MixStoreLawKept : Prop := ∀ s t : State, s.part.mx.law → step s = .next t → t.part.mx.law

/-- The ranges of TU, the order of its schedule and the difference of its ids (R165, R169), under a command that can reach the
part; the ranges of the four highways (R178) and of the eight players' pointers and windows (R128); and the arbiter's bounds
(R79), no group coming to more than 4 talkers or 8 waiters, or letting one talk or wait that is no member: every step keeps
them. -/
def Obligations.BlockLawsKept : Prop :=
  ∀ s t : State, step s = .next t →
    (s.part.tu.law → (∀ c rest, s.pending = c :: rest → c.wf = true) → t.part.tu.law)
    ∧ ((∀ h, h < 4 → (s.part.highway h).law) → ∀ h, h < 4 → (t.part.highway h).law)
    ∧ ((∀ k, k < 8 → (s.part.player k).law) → ∀ k, k < 8 → (t.part.player k).law)
    ∧ ((∀ g, g < 32 → (s.part.group g).law) → ∀ g, g < 32 → (t.part.group g).law)

/-- Notices (R201): every notice handed to CP takes the serial, which then advances from 255 to 0; while fewer than 64 are
queued it is queued, or sent at once; while 64 are queued it is dropped and notices-lost is set, and the event that raised
it, here a debounced change with its LEAD (R29), has its full effect all the same. -/
def Obligations.NoticesQueuedOrDropped : Prop :=
  (∀ (now : Nat) (l : Link) (n : Notice),
    let q : QNotice := { serial := l.serial, time := now, body := n }
    (l.notices.length < 64 →
      (q ∈ (l.queueNotice now n).notices ∨ (l.queueNotice now n).tx = some (.notice q))
        ∧ (l.queueNotice now n).serial = (if l.serial = 255 then 0 else (l.serial + 1) % 256)
        ∧ (l.queueNotice now n).noticesLost = l.noticesLost ∧ (l.queueNotice now n).notices.length ≤ 64)
    ∧ (64 ≤ l.notices.length →
      l.queueNotice now n = { l with serial := (l.serial + 1) % 256, noticesLost := true }))
  ∧ ∀ (n : Nat) (v : Bool) (s : State), n < 192 → s.link.notices.length = 64 → s.part.opsDone = [] → s.part.early = [] →
    s.part.outbox = [] →
    let c := Instr.debouncedChange n v
    let p := s.part.took c
    let q := p.port n
    q.debounced ≠ v → q.provisioned = true → q.outOfService = false → q.kind = .ringdown → q.edge = .both →
    exec c s = .next { s with
      part := { p.setPort n { q with debounced := v, stable := 0 } with
        events := p.events ++ [if v then .riseEvent n else .fallEvent n] }
      link := { s.link with serial := (s.link.serial + 1) % 256, noticesLost := true } }

/-- LOCKED is left by RESTART or power-on alone (R19): while no restart is under way, no command but POWER_ON takes a class
out of LOCKED. -/
def Obligations.LockedStaysLocked : Prop :=
  ∀ (c : Instr) (s t : State) (cls : Nat), s.link.phase ≠ .restarting → (∀ a b r n, c ≠ .powerOn a b r n) →
    s.part.guardOf cls = .locked → exec c s = .next t → t.part.guardOf cls = .locked

/-- The laws hold right after reset (R79, R91, R128, R146, R165, R178, R197 to R201). -/
def Obligations.LawsHoldAtReset : Prop :=
  State.reset.linkLaw ∧ State.reset.part.cu.law ∧ State.reset.part.mx.law ∧ State.reset.part.tu.law
    ∧ (∀ h, h < 4 → (State.reset.part.highway h).law) ∧ (∀ k, k < 8 → (State.reset.part.player k).law)
    ∧ ∀ g, g < 32 → (State.reset.part.group g).law

/-- A refused command changes nothing (R4, R200): a host command that is taken, none of its tag being answered already and no
line record being damaged, leaves the part as it was whenever its result is a refusal; a CUE_LOAD refused with WINDOW may find
the frame's advance of its player unfinished, which is finished first (R136; log 20). -/
def Obligations.RefusedCommandChangesNothing : Prop :=
  ∀ (c : Instr) (tag : Nat) (cmd : Cmd) (s t : State) (r : Result) (i : Info),
    c.host? = some (tag, cmd) → s.takes c = true → s.part.outbox = [] → (∀ n, (s.part.line n).damage = none) →
    (∀ x ∈ s.link.replies, x.tag = tag → x.answer = none) →
    (∀ k r' i', s.link.tx ≠ some (.reply tag k r' i')) →
    exec c s = .next t → Replied t tag cmd r i → r.refusal = true →
    Leaves s t (s.part.took c)
      ∨ ∃ k a v n x, c = .cueLoad tag k a v n x ∧ r = .window ∧ Leaves s t ((s.part.took c).finishAdvance k)

/-! ### The control link -/

/-- Power-on (R9, R10, R14, R16 to R18, R41, R79, R91, R129, R164, R165, R178, R204, R207): every block takes its power-on
values; until READY a host command is not taken; the reference frames before READY do their whole work, and the last of them
queues READY first, with serial 0, and then the CONDITION notices of the causes present. The number of frames to READY,
which R207 only bounds, and that what was handed to CP before goes unsent, are the model's choice (log 24); so are the
straps, the level of RRDY and the number of frames of the reset state, and RRDY's level standing for CU's until the first
frame (logs 4, 6), and the ascending order of the CONDITION notices, which R204 and R207 leave open (log 41). -/
def Obligations.PowerOnStarts : Prop :=
  (∃ n, 1 ≤ n ∧ n ≤ 800 ∧ ∀ s : State, s.pending = [] → exec (.powerOn false false false n) s = .next State.reset)
  ∧ (∀ (b1 b0 rrdy : Bool) (n : Nat) (s : State), ∃ t, exec (.powerOn b1 b0 rrdy n) s = .next t
    ∧ (∀ m, m < 192 → t.part.line m = { prov := LineProv.blank, state := .unprovisioned } ∧ t.part.port m = {})
    ∧ (∀ k, k < 24 → t.part.position k = {} ∧ t.part.mixPos k = {} ∧ ∀ j, j < 12 → t.part.slot k j = {})
    ∧ (∀ g, g < 32 → t.part.group g = { members := [], talkCode := 64, revoke := 30, talkers := [], waiters := [] })
    ∧ (∀ k, k < 4 → t.part.guardOf k = .opened) ∧ (∀ r, r < 32 → vget t.part.cc.routes r none = none)
    ∧ t.part.cc.digest = none ∧ (∀ o, o < 320 → t.part.mixList o = [])
    ∧ (∀ k, k < 8 → (t.part.player k).playing = false ∧ (t.part.player k).window = 32 ∧ (t.part.player k).block = 0
        ∧ (t.part.player k).sample = 0 ∧ ∀ b, b < 64 → vget (t.part.player k).valid b true = false)
    ∧ (∀ c, c < 32 → vget t.part.cu.taps c none = none) ∧ t.part.cu.journal = [] ∧ t.part.cu.seq = 1 ∧ t.part.cu.callRef = 1
    ∧ t.part.cu.dropped = false ∧ t.part.cu.answer = none ∧ t.part.cu.recorderReady = rrdy
    ∧ t.part.tu.floorTime = 0 ∧ t.part.tu.synced = false ∧ t.part.tu.steerRem = 0 ∧ t.part.tu.steerCount = 0
    ∧ t.part.tu.schedule = [] ∧ t.part.tu.nextId = 1
    ∧ (∀ h, h < 4 → t.part.highway h =
        { state := .lost, window := 0, arrivals := 0, gap := 0, buffer := [], current := silence, slipsCounted := false,
          slips := 0 })
    ∧ t.part.au.rrdy = rrdy ∧ t.part.au.rrdyHold = 0 ∧ t.part.au.rrdyFresh = true ∧ t.part.au.scrub = 0 ∧ t.part.au.probes = []
    ∧ t.part.au.meters = Vector.replicate 4 none ∧ t.part.au.fault = none
    ∧ t.part.au.mixCorrected = 0 ∧ t.part.au.lineCorrected = 0
    ∧ (∀ k, k < 19 → (vget t.part.conds k {}).latch = false)
    ∧ t.part.ops = Vector.replicate 4 none ∧ t.part.opsDone = [] ∧ t.part.events = []
    ∧ t.link = { baud1 := b1, baud0 := b0, phase := .starting n, start := .power, rxBuf := [], inBreak := false,
                 replies := [], notices := [], serial := 0, noticesLost := false, crcErrors := 0, gaps := 0, overruns := 0,
                 tx := none }
    ∧ t.pending = s.pending)
  ∧ (∀ (c : Instr) (tag : Nat) (cmd : Cmd) (n : Nat) (s : State), c.host? = some (tag, cmd) → c ∉ s.part.events →
      s.link.phase = .starting n → exec c s = .next s)
  ∧ ∀ (i : FrameInput) (n : Nat) (s : State),
    let f := s.frame i
    f.link.phase = .starting n →
    (2 ≤ n → exec (.referenceFrame i) s = .next { f with link := { f.link with phase := .starting (n - 1) } })
    ∧ (n ≤ 1 → f.link.tx = none →
      let now := f.part.tu.floorTime
      ∃ t, exec (.referenceFrame i) s = .next t
        ∧ t.part = { f.part with conds := t.part.conds }
        ∧ (∀ k, k < 19 → vget t.part.conds k {} = { cause := f.part.ownerCause k, latch := f.part.ownerCause k })
        ∧ t.link.phase = .running ∧ t.link.start = .power ∧ t.link.rxBuf = [] ∧ t.link.replies = []
        ∧ t.link.noticesLost = f.link.noticesLost
        ∧ t.link.tx = some (.notice
            { serial := 0, time := now, body := .ready .power now f.part.tu.synced 0x4D 4860 Config.siliconRevision })
        ∧ t.link.notices = ((List.range 19).filter fun k => f.part.ownerCause k).mapIdx fun k m =>
            { serial := k + 1, time := now, body := .condition m })

/-- A break (R198, R203, R206): the partial frame and both queues go, a place whose command is not yet answered stays held,
notices-lost is set, and nothing else of the part changes; a result held in an op slot is queued at once; and one that takes
away the reply of a RESTART begins the restart. -/
def Obligations.LinkBreakFlushes : Prop :=
  ∀ s : State,
    (s.part.opsDone = [] → (s.link.phase = .restartTaken → s.link.replies.any Place.restartReply = false) →
      exec .linkBreak s = .next { s with link := { s.link with
        rxBuf := [], inBreak := true, replies := s.link.replies.filter (fun x => x.answer.isNone), notices := [],
        noticesLost := true } })
    ∧ (∀ i tag op r, s.part.opsDone = [i] → i < 4 → s.link.phase = .running →
        vget s.part.ops i none = some { tag := tag, op := op, result := some r } →
        ∃ t, exec .linkBreak s = .next t ∧ Told t (.opDone tag op r) ∧ vget t.part.ops i none = none
          ∧ t.part.opsDone = [] ∧ t.link.noticesLost = true)
    ∧ (s.link.phase = .restartTaken → s.link.replies.any Place.restartReply = true →
        ∃ t, exec .linkBreak s = .next t ∧ t.link.phase = .restarting ∧ t.link.notices = []
          ∧ t.part = s.part.raise .restartBegin)

/-- The receiver (R196 to R199, R208): the bytes of a frame bring it from hunt to hunt and hand CP exactly its KIND, TAG and
payload; with all 8 places held the frame is only counted as an overrun; a TAG of 0, and a KIND that is no command's, are
answered at once, in a place behind those held before; so is a host command's frame whose tag is 0 or whose length is wrong,
whatever waits under its KIND and TAG. A SET_TIME of 6 bytes is handed over as the floor time they carry, high byte first,
and a command without arguments when its payload is empty; with any payload that is answered BAD_FORMAT (R20, R195, R205,
R206). A frame that fails its CRC is counted, and its bytes after the SYNC are looked at again. A partial frame is discarded
and counted when the gap runs out; the SYNC before a LEN out of range is discarded uncounted; in a break, and while a
restart is on its way, every byte is; and the end of a break only ends the wait. -/
def Obligations.ReceiverTakesAndDiscards : Prop :=
  (∀ (kind tag : Byte) (payload : List Byte) (s : State),
    s.link.phase = .running → s.link.inBreak = false → s.link.rxBuf = [] → payload.length ≤ 248 →
    ∃ t, exec (.frameReceived (frameBytes kind tag payload)) s = .next t ∧ t = s.takeFrame kind tag payload
      ∧ (8 ≤ s.link.replies.length →
          t = { s with link := { s.link with overruns := min 65535 (s.link.overruns + 1) } })
      ∧ (s.link.replies.length < 8 → tag = 0 → t.part = s.part
          ∧ (s.link.tx.isSome = true → t.link.replies
              = s.link.replies ++ [{ tag := 0, kind := .raw kind, answer := some (.badFormat, .none) }])
          ∧ (t.link.tx = some (.reply 0 (.raw kind) .badFormat .none)
            ∨ ({ tag := 0, kind := .raw kind, answer := some (.badFormat, .none) } : Place) ∈ t.link.replies))
      ∧ (s.link.replies.length < 8 → tag ≠ 0 → (kind = 0 ∨ 0x60 ≤ kind.toNat) → t.part = s.part
          ∧ (s.link.tx.isSome = true → t.link.replies
              = s.link.replies ++ [{ tag := tag.toNat, kind := .raw kind, answer := some (.unknownKind, .none) }])
          ∧ (t.link.tx = some (.reply tag.toNat (.raw kind) .unknownKind .none)
            ∨ ({ tag := tag.toNat, kind := .raw kind, answer := some (.unknownKind, .none) } : Place) ∈ t.link.replies)))
  ∧ (∀ (c : Instr) (tag : Nat) (cmd : Cmd) (s : State),
      c.host? = some (tag, cmd) → c ∉ s.part.events → s.link.phase = .running → s.link.inBreak = false →
      s.link.replies.length < 8 → s.link.tx.isSome = true → (tag = 0 ∨ formatOk c = false) →
      exec c s = .next { s with link := { s.link with
        replies := s.link.replies ++ [{ tag := tag, kind := .cmd cmd, answer := some (.badFormat, .none) }] } })
  ∧ (∀ (tag : Byte) (s : State),
      s.link.phase = .running → s.link.inBreak = false → s.link.rxBuf = [] → s.link.replies.length < 8 → tag ≠ 0 →
      let t := tag.toNat
      let frame := fun (c : Cmd) (payload : List Byte) => Instr.frameReceived (frameBytes (cmdKind c) tag payload)
      (∀ x : BitVec 48, exec (frame .setTime (bytesBE 6 x.toNat)) s
        = .next { s with link := s.link.holdPlace t (.cmd .setTime), part := s.part.raise (.setTime t x) })
      ∧ (∀ i c, i.host? = some (t, c) → c ∈ [Cmd.digest, .readFault, .clearFault, .status] → exec (frame c []) s
          = .next { s with link := s.link.holdPlace t (.cmd c), part := s.part.raise i })
      ∧ (s.link.tx.isSome = true → exec (frame .restart []) s = .next { s with link := { s.link with
          phase := .restartTaken,
          replies := s.link.replies ++ [{ tag := t, kind := .cmd .restart, answer := some (.ok, .none) }] } })
      ∧ ∀ c payload, c ∈ [Cmd.digest, .readFault, .clearFault, .status, .restart] → payload ≠ [] → payload.length ≤ 248 →
          s.link.tx.isSome = true → exec (frame c payload) s = .next { s with link := { s.link with
            replies := s.link.replies ++ [{ tag := t, kind := .cmd c, answer := some (.badFormat, .none) }] } })
  ∧ (∀ (len : Byte) (inner crc : List Byte) (s : State),
      s.link.phase = .running → s.link.inBreak = false → s.link.rxBuf = [] → 2 ≤ len.toNat → len.toNat ≤ 250 →
      inner.length = len.toNat → crc.length = 2 → bytesBE 2 (crc16 (len :: inner)).toNat ≠ crc →
      let s1 : State := { s with link := { s.link with crcErrors := min 65535 (s.link.crcErrors + 1) } }
      exec (.frameReceived (0xA5 :: len :: (inner ++ crc))) s = exec (.frameReceived (len :: (inner ++ crc))) s1
        ∧ ((∀ b ∈ len :: (inner ++ crc), b ≠ 0xA5) →
            exec (.frameReceived (0xA5 :: len :: (inner ++ crc))) s = .next s1))
  ∧ (∀ (len : Byte) (body : List Byte) (s : State),
      s.link.phase = .running → s.link.inBreak = false → s.link.rxBuf = [] → 2 ≤ len.toNat → len.toNat ≤ 250 →
      body.length < len.toNat + 2 →
      exec (.frameGapTimeout (0xA5 :: len :: body)) s
        = .next { s with link := { s.link with gaps := min 65535 (s.link.gaps + 1) } })
    ∧ (∀ (len : Byte) (s : State),
      s.link.phase = .running → s.link.inBreak = false → s.link.rxBuf = [] → (len.toNat < 2 ∨ 250 < len.toNat) →
      exec (.lenOutOfRange [0xA5, len]) s = .next s)
    ∧ (∀ (bytes : List Byte) (s : State), s.link.phase ≠ .running ∨ s.link.inBreak = true → s.link.rxBuf = [] →
      exec (.frameReceived bytes) s = .next s ∧ exec (.frameGapTimeout bytes) s = .next s
        ∧ exec (.lenOutOfRange bytes) s = .next s)
    ∧ ∀ s : State, exec .breakEnd s = .next { s with link := { s.link with inBreak := false } }

/-- The transmitter (R196, R199 to R203, R206, R208): at the end of a frame it takes the oldest reply, otherwise the oldest
notice, otherwise it idles; the end of a RESTART's reply begins the restart; and a held result takes the place a departing
notice frees (the order is the model's choice, log 33). What it sends is SYNC, LEN, KIND, TAG, payload and CRC: a reply's
KIND is the command's OR 0x80, the KIND its frame came with, a notice's one of 0x60 to 0x6A with TAG 0. A fetch's payload
holds each of its entries' bytes, STATUS's its floor time in 6 bytes, OP_DONE's its result byte, and READY's its floor time
in 6 bytes, the vendor code, the part number in 2 and a revision counting from 1 (R207), in this order, which is the model's
choice (log 2). -/
def Obligations.TransmitDoneChoosesNext : Prop :=
  (∀ (f : TxFrame), ∃ (kind tag : Byte) (payload : List Byte),
    f.bytes = [0xA5, BitVec.ofNat 8 (payload.length + 2), kind, tag] ++ payload
        ++ bytesBE 2 (crc16 (BitVec.ofNat 8 (payload.length + 2) :: kind :: tag :: payload)).toNat
      ∧ 1 ≤ payload.length ∧ payload.length ≤ 248
      ∧ (∀ n k r i, f = .reply n k r i → tag = BitVec.ofNat 8 n ∧ payload.head? = some (BitVec.ofNat 8 r.code)
          ∧ (∀ b, k = .raw b → kind = b ||| 0x80) ∧ ∀ c, k = .cmd c → kind = cmdKind c ||| 0x80)
      ∧ ∀ q, f = .notice q → tag = 0 ∧ kind = q.body.kind ∧ 0x60 ≤ kind.toNat ∧ kind.toNat ≤ 0x6A
          ∧ payload.take 7 = BitVec.ofNat 8 q.serial :: bytesBE 6 q.time)
  ∧ (∀ tag k r (x : FetchReport) e, x.entries.length ≤ 8 → (∀ y ∈ x.entries, y.length = 20) → e ∈ x.entries →
      ∃ a b, (TxFrame.reply tag k r (.fetched x)).fields = a ++ e ++ b)
  ∧ (∀ tag k r (x : StatusReport), ∃ a b,
      (TxFrame.reply tag k r (.status x)).fields = a ++ bytesBE 6 x.floorTime ++ b)
  ∧ (∀ serial now tag op (r : OpResult), ∃ a b,
      (TxFrame.notice { serial := serial, time := now, body := .opDone tag op r }).fields = a ++ [BitVec.ofNat 8 r.code] ++ b)
  ∧ (∀ serial now cause floorTime synced, 1 ≤ Config.siliconRevision.toNat ∧ ∃ a b c d e,
      (TxFrame.notice
        { serial := serial, time := now, body := .ready cause floorTime synced 0x4D 4860 Config.siliconRevision }).fields
        = a ++ bytesBE 6 floorTime ++ b ++ [0x4D] ++ c ++ [0x12, 0xFC] ++ d ++ [Config.siliconRevision] ++ e)
  ∧ (∀ c : Cmd, 1 ≤ (cmdKind c).toNat ∧ (cmdKind c).toNat ≤ 0x5F ∧ cmdOfKind (cmdKind c) = some c)
  ∧ (∀ (kind : Byte) (c : Cmd), cmdOfKind kind = some c → cmdKind c = kind)
  ∧ ∀ (f : TxFrame) (s : State), s.link.tx = some f →
    (∀ tag k r i rest, s.link.phase = .running → s.part.opsDone = [] →
      s.link.replies = { tag := tag, kind := k, answer := some (r, i) } :: rest →
      exec .transmitFrameDone s
        = .next { s with link := { s.link with replies := rest, tx := some (.reply tag k r i) } })
    ∧ (∀ n rest, s.link.phase = .running → s.part.opsDone = [] →
      (∀ x, s.link.replies.head? = some x → x.answer = none) → s.link.notices = n :: rest →
      exec .transmitFrameDone s = .next { s with link := { s.link with notices := rest, tx := some (.notice n) } })
    ∧ (s.link.phase = .running → s.part.opsDone = [] → (∀ x, s.link.replies.head? = some x → x.answer = none) →
      s.link.notices = [] → exec .transmitFrameDone s = .next { s with link := { s.link with tx := none } })
    ∧ (∀ tag i, s.link.phase = .restartTaken → f = .reply tag (.cmd .restart) .ok i →
      exec .transmitFrameDone s = .next { s with
        link := { s.link with tx := none, phase := .restarting }, part := s.part.raise .restartBegin })
    ∧ ∀ i tag op r, s.link.phase = .running → s.part.opsDone = [i] → i < 4 → s.link.replies = [] →
        s.link.notices.length = 64 → vget s.part.ops i none = some { tag := tag, op := op, result := some r } →
        ∃ t, exec .transmitFrameDone s = .next t ∧ vget t.part.ops i none = none ∧ t.part.opsDone = []
          ∧ t.link.notices.length = 64 ∧ Told t (.opDone tag op r)

/-- ACK_CONDITION and STATUS (R204, R205): the latch goes with the cause and the reply carries both; the status reply
reports the part, and the counts, the slips and notices-lost are cleared; nothing else changes. -/
def Obligations.ConditionsAckedStatusReported : Prop :=
  (∀ (tag n : Nat) (s : State), s.takes (.ackCondition tag n) = true →
    (n < 19 → ∃ t, exec (.ackCondition tag n) s = .next t
      ∧ Leaves s t { s.part.took (.ackCondition tag n) with
          conds := vset s.part.conds n { cause := (vget s.part.conds n {}).cause,
                                         latch := (vget s.part.conds n {}).latch && (vget s.part.conds n {}).cause } }
      ∧ Replied t tag .ackCondition .ok
          (.cond ((vget s.part.conds n {}).latch && (vget s.part.conds n {}).cause) (vget s.part.conds n {}).cause))
    ∧ (19 ≤ n → Answers (.ackCondition tag n) s tag .ackCondition .badValue .none))
  ∧ ∀ (tag : Nat) (s : State), s.takes (.status tag) = true →
    ∃ t r, exec (.status tag) s = .next t ∧ Replied t tag .status .ok (.status r)
      ∧ Leaves { s with link := { s.link with crcErrors := 0, gaps := 0, overruns := 0 } } t
          { s.part.took (.status tag) with au := { s.part.au with
              highways := s.part.au.highways.map fun (w : Highway) => { w with slips := 0 } } }
      ∧ r.start = s.link.start ∧ r.floorTime = s.part.tu.floorTime ∧ r.synced = s.part.tu.synced
      ∧ (∀ h, h < 4 → r.highways[h]? = some (s.part.highway h).state ∧ r.slips[h]? = some (s.part.highway h).slips)
      ∧ r.ready = s.part.cu.recorderReady ∧ r.mixUsed = s.part.mx.used ∧ r.taps = s.part.cu.openTaps
      ∧ r.journal = s.part.cu.used ∧ r.schedule = s.part.tu.schedule.length
      ∧ r.ops = s.part.ops.toList.countP Option.isSome ∧ r.conds = s.part.conds.toList
      ∧ r.crcErrors = s.link.crcErrors ∧ r.gaps = s.link.gaps ∧ r.overruns = s.link.overruns
      ∧ (s.part.early = [] → s.part.outbox = [] → r.noticesLost = s.link.noticesLost ∧ t.link.noticesLost = false)

/-- RESTART and the restart itself (R17, R163, R177, R195, R204, R206): CP answers OK and takes nothing further; once it
begins, every tap is closed, each whose device occupies a line with a TAP_CLOSE of cause RESTART in the journal; the records,
groups, routes, guards, mix lists, players, schedule, probes, meters and op slots are at their restart values, every latch is
as its cause; and floor time, the journal, the Fault Record and the highways are kept. That the actions already handed to a
block go too, and that a frame whose correction TU has not yet taken still waits, is the model's reading (log 23): R206
speaks of the entries in the schedule alone. -/
def Obligations.RestartEmptiesThePart : Prop :=
  (∀ (tag : Nat) (s : State), s.takes (.restart tag) = true →
    ∃ t, exec (.restart tag) s = .next t ∧ Replied t tag .restart .ok .none
      ∧ Leaves { s with link := { s.link with phase := .restartTaken, rxBuf := [] } } t (s.part.took (.restart tag)))
    ∧ ∀ s : State, s.link.phase = .restarting →
      ∃ t, exec .restartBegin s = .next t
        ∧ (∀ m, m < 192 → t.part.line m = { prov := LineProv.blank, state := .unprovisioned }
            ∧ (t.part.port m).sampling = !((s.part.highway (m / 48)).state == .lost)
            ∧ (t.part.port m).provisioned = false ∧ (t.part.port m).outLead = false ∧ (t.part.port m).burst = 0)
        ∧ (∀ k, k < 24 → t.part.position k = {} ∧ t.part.mixPos k = {} ∧ ∀ j, j < 12 → t.part.slot k j = {})
        ∧ (∀ g, g < 32 → t.part.group g = {}) ∧ (∀ k, k < 4 → t.part.guardOf k = .opened)
        ∧ (∀ r, r < 32 → vget t.part.cc.routes r none = none)
        ∧ (∀ k, k < 19 → vget t.part.conds k {} = { cause := t.part.ownerCause k, latch := t.part.ownerCause k })
        ∧ t.part.cc.digest = none ∧ (∀ o, o < 320 → t.part.mixList o = []) ∧ (∀ k, k < 8 → t.part.player k = {})
        ∧ (∀ c, c < 32 → vget t.part.cu.taps c none = none) ∧ t.part.cu.callRef = s.part.cu.callRef
        ∧ t.part.cu.recorderReady = s.part.cu.recorderReady
        ∧ (∃ new, t.part.cu.journal = s.part.cu.journal ++ new
            ∧ (∀ e ∈ new, e.kind = .lineLeave ∨ (e.kind = .tapClose ∧ e.close = some .restart))
            ∧ ∀ ch x, ch < 32 → vget s.part.cu.taps ch none = some x →
                (∀ k y, k < ch → vget s.part.cu.taps k none = some y →
                  ¬ (y.position = x.position ∧ y.device = x.device)) →
                (s.part.position x.position).linesOf x.device ≠ [] →
                (∀ m ∈ (s.part.position x.position).linesOf x.device,
                  m < 192 ∧ (x.position, x.device) ∈ (s.part.line m).occupants) →
                ∃ e ∈ new, e.kind = .tapClose ∧ e.close = some .restart ∧ e.channel = some ch
                  ∧ e.position = some x.position ∧ e.device = some x.device ∧ e.ref = some x.ref
                  ∧ e.time = s.part.tu.floorTime)
        ∧ t.part.tu = { s.part.tu with steerRem := 0, steerCount := 0, schedule := [], handed := [] }
        ∧ t.part.au = { s.part.au with probes := [], meters := Vector.replicate 4 none }
        ∧ t.part.ops = Vector.replicate 4 none ∧ t.part.opsDone = []
        ∧ t.link.phase = .running ∧ t.link.start = .restart ∧ t.link.replies = [] ∧ t.link.noticesLost = false
        ∧ t.link.crcErrors = 0 ∧ t.link.gaps = 0 ∧ t.link.overruns = 0
        ∧ (s.link.tx = none → t.link.tx = some (.notice
            { serial := 0, time := s.part.tu.floorTime,
              body := .ready .restart s.part.tu.floorTime s.part.tu.synced 0x4D 4860 Config.siliconRevision }))
        ∧ t.pending = s.pending

/-! ### The floor plan -/

/-- DEFINE_LINE (R6, R7, R27, R28, R61): an admitted definition writes the record whole, sets the state by the kind and the
highway, marks a RINGDOWN line lingering whose far lead is up, and hands the port its settings; every other block stays as
the check of the record left it. The lead that decides the lingering is the one CC reads under the old settings, less a
change whose event still waits (R31), also when the definition changes the lead sense (log 12). No waiting debounced change
of the port is assumed; one that waits is produced first (log 20). -/
def Obligations.DefineLineWritesRecord : Prop :=
  ∀ (tag n kind : Nat) (appear : BitVec 24) (policy : Nat) (ringCue holdCue : Option Nat) (sense edge debounce : Nat)
    (k : LineKind) (pol : Policy) (sn : Sense) (ed : EdgeReport) (s : State),
    let c := Instr.defineLine tag n kind appear policy ringCue holdCue sense edge debounce
    let p := (s.part.took c).useLine n
    lineKindOf kind = some k → policyOf policy = some pol → senseOf sense = some sn → edgeOf edge = some ed →
    n < 192 → cueChoiceOk ringCue = true → cueChoiceOk holdCue = true → s.part.guardOf 0 = .opened →
    ((p.line n).state = .unprovisioned ∨ (p.line n).state = .idle
      ∨ ((p.line n).state = .opened ∧ (p.line n).occupants = [])
      ∨ ((p.line n).state = .outOfService ∧ (p.line n).oosCause = some .memory)) →
    ((p.line n).prov.kind = .hoot → k = .hoot ∨ p.targeted n = false) →
    (∀ v, Instr.debouncedChange n v ∉ p.events) → s.takes c = true →
    let lost := (p.highway (n / 48)).state == .lost
    let st : LState := if lost then .outOfService else if k = .hoot then .opened else .idle
    let q := p.port n
    ∃ t, exec c s = .next t ∧ Replied t tag .defineLine .ok .none
      ∧ Leaves s t (((((p.setLine n
          { prov := { kind := k, appear := appear, policy := pol, ringCue := ringCue, holdCue := holdCue, sense := sn,
                      edge := ed, debounce := max 1 (min debounce 255) }
            state := st
            oosCause := if lost then some .highway else none
            lingering := k == .ringdown && !lost && p.farLead n }).keepKind n k).setPort n
          { q with
            stable := if q.sense = sn then q.stable else 0
            kind := k, sense := sn, edge := ed, debounce := max 1 (min debounce 255)
            provisioned := true, outOfService := lost, outLead := false, burst := 0, inTimer := none }).disturb))
      ∧ (s.roomy → (p.line n).state ≠ st → Told t (.lineState n st .defined [] false none
          (if lost then some .highway else none)))

/-- REMOVE_LINE (R8, R37, R61): an admitted removal leaves the record and the port with their unprovisioned values. -/
def Obligations.RemoveLineClearsRecord : Prop :=
  ∀ (tag n : Nat) (s : State),
    let c := Instr.removeLine tag n
    let p := (s.part.took c).useLine n
    n < 192 → s.part.guardOf 0 = .opened →
    ((p.line n).state = .idle ∨ (p.line n).state = .outOfService
      ∨ ((p.line n).state = .opened ∧ (p.line n).occupants = [])) →
    p.targeted n = false → (∀ v, Instr.debouncedChange n v ∉ p.events) → s.takes c = true →
    let q := p.port n
    ∃ t, exec c s = .next t ∧ Replied t tag .removeLine .ok .none
      ∧ Leaves s t (((((p.setLine n { prov := LineProv.blank, state := .unprovisioned }).keepKind n .ringdown).setPort n
          { q with
            stable := if q.sense = .normal then q.stable else 0
            kind := .ringdown, sense := .normal, edge := .none, debounce := 20
            provisioned := false, outOfService := false, outLead := false, burst := 0, inTimer := none }).disturb))
      ∧ (s.roomy → Told t (.lineState n .unprovisioned .removed [] false none none))

/-- DEFINE_POSITION (R10, R11): an admitted definition writes the whole record, clamped, its edit is applied, and MX takes the
trims, the depth and the priority sources; an edit that does not fit is refused with MIX_FULL. The edit covers every output of
positionOuts, whether or not a field it depends on changes (log 13). -/
def Obligations.DefinePositionWritesRecord : Prop :=
  ∀ (tag pos : Nat) (a : PositionArgs) (en : Bool) (ro : Side) (au : Bool) (s : State),
    let c := Instr.definePosition tag pos a
    let p := s.part.took c
    let q : Position := { p.position pos with
      enabled := en, rxA := min a.rxA 76, rxB := min a.rxB 76, micA := min a.micA 76, micB := min a.micB 76,
      micS := min a.micS 76, sideA := min a.sideA 76, sideB := min a.sideB 76,
      trimEA := max (-24) (min a.trimEA 12), trimEB := max (-24) (min a.trimEB 12),
      trimSL := max (-24) (min a.trimSL 12), trimSR := max (-24) (min a.trimSR 12),
      duck := min a.duck 40, ringOut := ro, audible := au, recallTime := min a.recallTime 600 }
    let p1 := p.setPosition pos q
    onOffOf a.enabled = some en → sideOf a.ringOut = some ro → onOffOf a.audible = some au → pos < 24 →
    s.part.guardOf 1 = .opened → (en = false → (p.position pos).enabled = true → p.liveClaim pos = false) →
    s.takes c = true →
    (∀ p2, p1.edit? (positionOuts p1 pos) = some p2 →
      ∃ t, exec c s = .next t ∧ Replied t tag .definePosition .ok .none
        ∧ Leaves s t (((p2.handTrims pos).handPriority pos).disturb)
        ∧ t.part.position pos = q
        ∧ (t.part.mixPos pos).trimEA = q.trimEA ∧ (t.part.mixPos pos).trimEB = q.trimEB
        ∧ (t.part.mixPos pos).trimSL = q.trimSL ∧ (t.part.mixPos pos).trimSR = q.trimSR
        ∧ (t.part.mixPos pos).duck = q.duck)
    ∧ (p1.edit? (positionOuts p1 pos) = none → Answers c s tag .definePosition .mixFull .none)

/-- SET_DEVICE_GAIN and SET_TRIM (R13): each writes one field of the record, clamped. A gain's edit is applied or refused with
MIX_FULL; a trim derives no list and goes to MX. -/
def Obligations.GainAndTrimWriteOneField : Prop :=
  (∀ (tag pos dev which code : Nat) (q : Position) (outs : List Nat) (s : State),
    let c := Instr.setDeviceGain tag pos dev which code
    let p := s.part.took c
    let old := p.position pos
    pos < 24 → gainChange p pos dev which (min code 76) = some (q, outs) → s.takes c = true →
    (∀ p2, (p.setPosition pos q).edit? outs = some p2 →
      ∃ t, exec c s = .next t ∧ Replied t tag .setDeviceGain .ok .none ∧ Leaves s t p2.disturb
        ∧ (which = 0 → dev = 0 → t.part.position pos = { old with rxA := min code 76 })
        ∧ (which = 0 → dev = 1 → t.part.position pos = { old with rxB := min code 76 })
        ∧ (which = 1 → dev = 0 → t.part.position pos = { old with micA := min code 76 })
        ∧ (which = 1 → dev = 1 → t.part.position pos = { old with micB := min code 76 })
        ∧ (which = 1 → dev = 2 → t.part.position pos = { old with micS := min code 76 })
        ∧ (which = 2 → dev = 0 → t.part.position pos = { old with sideA := min code 76 })
        ∧ (which = 2 → dev = 1 → t.part.position pos = { old with sideB := min code 76 }))
    ∧ ((p.setPosition pos q).edit? outs = none → Answers c s tag .setDeviceGain .mixFull .none))
  ∧ ∀ (tag pos output : Nat) (trim : Int) (s : State),
    let c := Instr.setTrim tag pos output trim
    let p := s.part.took c
    let v := max (-24) (min trim 12)
    let q : Position := { p.position pos with
      trimEA := if output = 0 then v else (p.position pos).trimEA
      trimEB := if output = 1 then v else (p.position pos).trimEB
      trimSL := if output = 2 then v else (p.position pos).trimSL
      trimSR := if output = 3 then v else (p.position pos).trimSR }
    pos < 24 → output < 4 → s.takes c = true →
    ∃ t, exec c s = .next t ∧ Replied t tag .setTrim .ok .none
      ∧ Leaves s t (((p.setPosition pos q).setMixPos pos { p.mixPos pos with
          trimEA := q.trimEA, trimEB := q.trimEB, trimSL := q.trimSL, trimSR := q.trimSR, duck := q.duck }).disturb)

/-- DEFINE_SPEAKER (R15, R90): an admitted definition writes the slot, keeps its talk state, and derives both sides; an edit
that does not fit is refused with MIX_FULL. -/
def Obligations.DefineSpeakerWritesSlot : Prop :=
  ∀ (tag pos k targetKind target side code priority listen : Nat) (x : Target) (sd : Side) (pr li : Bool) (s : State),
    let c := Instr.defineSpeaker tag pos k targetKind target side code priority listen
    let p := s.part.took c
    let p1 := p.setSlot pos k { p.slot pos k with
      target := x, side := sd, gain := min code 76, priority := pr, listen := li }
    ((targetKind = 0 ∧ x = .none) ∨ (targetKind = 1 ∧ target < 192 ∧ x = .hoot target)
      ∨ (targetKind = 2 ∧ target < 32 ∧ x = .group target)) →
    sideOf side = some sd → onOffOf priority = some pr → onOffOf listen = some li → pos < 24 → k < 12 →
    s.part.guardOf 2 = .opened →
    (∀ n, x = .hoot n → (s.part.line n).state ≠ .unprovisioned ∧ vget s.part.cc.kinds n .ringdown = .hoot) →
    (x ≠ (s.part.slot pos k).target → s.part.slotInUse pos k = false) → s.takes c = true →
    (∀ p2, p1.edit? [4 * pos + 2, 4 * pos + 3] = some p2 →
      ∃ t, exec c s = .next t ∧ Replied t tag .defineSpeaker .ok .none ∧ Leaves s t ((p2.handPriority pos).disturb))
    ∧ (p1.edit? [4 * pos + 2, 4 * pos + 3] = none → Answers c s tag .defineSpeaker .mixFull .none)

/-- SPEAKER_LISTEN and SPEAKER_GAIN (R72, R73): the switch or the code is written; a slot that is heard derives its side; the
switch of a slot that does not fit keeps its old value; a gain disturbs a digest. -/
def Obligations.SpeakerListenAndGain : Prop :=
  (∀ (tag pos k onOff : Nat) (v : Bool) (s : State),
    let c := Instr.speakerListen tag pos k onOff
    let p := s.part.took c
    let p1 := p.setSlot pos k { p.slot pos k with listen := v }
    onOffOf onOff = some v → pos < 24 → k < 12 → s.takes c = true →
    ((s.part.slot pos k).listen = v → Answers c s tag .speakerListen .ok .none)
    ∧ ((s.part.slot pos k).listen ≠ v →
        ((s.part.slot pos k).target = .none ∨ (s.part.position pos).enabled = false) →
        ∃ t, exec c s = .next t ∧ Replied t tag .speakerListen .ok .none ∧ Leaves s t p1)
    ∧ ((s.part.slot pos k).listen ≠ v → (s.part.slot pos k).target ≠ .none → (s.part.position pos).enabled = true →
        (∀ p2, p1.edit? [sideOutput pos (s.part.slot pos k).side] = some p2 →
          ∃ t, exec c s = .next t ∧ Replied t tag .speakerListen .ok .none ∧ Leaves s t (p2.handPriority pos))
        ∧ (p1.edit? [sideOutput pos (s.part.slot pos k).side] = none →
          Answers c s tag .speakerListen .mixFull .none)))
  ∧ ∀ (tag pos k code : Nat) (s : State),
    let c := Instr.speakerGain tag pos k code
    let p := s.part.took c
    let p1 := p.setSlot pos k { p.slot pos k with gain := min code 76 }
    let heard := (p.slot pos k).listen = true ∧ (p.slot pos k).target ≠ .none ∧ (p.position pos).enabled = true
    pos < 24 → k < 12 → s.takes c = true →
    (¬ heard → ∃ t, exec c s = .next t ∧ Replied t tag .speakerGain .ok .none ∧ Leaves s t p1.disturb)
    ∧ (heard → ∀ p2, p1.edit? [sideOutput pos (p.slot pos k).side] = some p2 →
        ∃ t, exec c s = .next t ∧ Replied t tag .speakerGain .ok .none ∧ Leaves s t p2.disturb)

/-- DEFINE_GROUP, CUE_ROUTE and SET_GUARD (R16, R19, R100, R200): the record, the route or the level is written; a member's
position or priority choice out of its range, a live group, an edit that does not fit and a LOCKED class refuse. -/
def Obligations.GroupRouteGuardWritten : Prop :=
  (∀ (tag g : Nat) (members : List (Nat × Nat)) (talkCode revoke : Nat) (s : State),
    let c := Instr.defineGroup tag g members talkCode revoke
    s.takes c = true →
    (32 ≤ g ∨ (∃ m ∈ members, 24 ≤ m.1 ∨ 2 ≤ m.2) ∨ ¬ (members.map Prod.fst).Nodup) →
    Answers c s tag .defineGroup .badValue .none)
  ∧ (∀ (tag g : Nat) (members : List (Nat × Nat)) (talkCode revoke : Nat) (s : State),
    let c := Instr.defineGroup tag g members talkCode revoke
    let p := s.part.took c
    g < 32 → (∀ m ∈ members, m.1 < 24 ∧ m.2 < 2) → (members.map Prod.fst).Nodup → s.part.guardOf 3 = .opened →
    s.takes c = true →
    ((s.part.group g).talkers = [] → (s.part.group g).waiters = [] →
      ∃ t, exec c s = .next t ∧ Replied t tag .defineGroup .ok .none
        ∧ Leaves s t ((p.setGroup g { members := members.map fun m => (m.1, m.2 == 1),
                                      talkCode := min talkCode 76, revoke := min revoke 300, talkers := [], waiters := [] }).disturb))
    ∧ ((s.part.group g).talkers ≠ [] ∨ (s.part.group g).waiters ≠ [] →
        Answers c s tag .defineGroup .wrongState .none))
  ∧ (∀ (tag route : Nat) (player : Option Nat) (output code : Nat) (s : State),
    let c := Instr.cueRoute tag route player output code
    let p := s.part.took c
    let old := vget p.cc.routes route none
    let new : Option Route := player.map fun k => { player := k, output := output, code := min code 76 }
    let p1 := { p with cc := { p.cc with routes := vset p.cc.routes route new } }
    let outs := (match old with | some r => [r.output] | none => []) ++ match new with | some r => [r.output] | none => []
    route < 32 → (∀ k, player = some k → k < 8 ∧ output < 96) → s.takes c = true →
    (∀ p2, p1.edit? outs = some p2 →
      ∃ t, exec c s = .next t ∧ Replied t tag .cueRoute .ok .none ∧ Leaves s t p2)
    ∧ (p1.edit? outs = none → Answers c s tag .cueRoute .mixFull .none))
  ∧ ∀ (tag cls level : Nat) (v : Level) (s : State),
    let c := Instr.setGuard tag cls level
    let p := s.part.took c
    cls < 4 → levelOf level = some v → s.takes c = true →
    (s.part.guardOf cls ≠ .locked ∨ v = .locked →
      ∃ t, exec c s = .next t ∧ Replied t tag .setGuard .ok .none
        ∧ Leaves s t { p with cc := { p.cc with guards := vset p.cc.guards cls v } })
    ∧ (s.part.guardOf cls = .locked → v ≠ .locked → Answers c s tag .setGuard .locked .none)

/-- Guards (R18): each governed command with indices in range is refused with GUARDED unless its class is OPEN. -/
def Obligations.GuardedCommandsRefused : Prop :=
  (∀ (tag n kind : Nat) (appear : BitVec 24) (policy : Nat) (ringCue holdCue : Option Nat) (sense edge debounce : Nat)
      (s : State),
    let c := Instr.defineLine tag n kind appear policy ringCue holdCue sense edge debounce
    n < 192 → kind < 3 → policy < 3 → sense < 2 → edge < 4 → cueChoiceOk ringCue = true → cueChoiceOk holdCue = true →
    s.part.guardOf 0 ≠ .opened → s.takes c = true → Answers c s tag .defineLine .guarded .none)
  ∧ (∀ (tag n : Nat) (s : State), n < 192 → s.part.guardOf 0 ≠ .opened → s.takes (.removeLine tag n) = true →
    Answers (.removeLine tag n) s tag .removeLine .guarded .none)
  ∧ (∀ (tag pos : Nat) (a : PositionArgs) (s : State), pos < 24 → a.enabled < 2 → a.ringOut < 2 → a.audible < 2 →
    s.part.guardOf 1 ≠ .opened → s.takes (.definePosition tag pos a) = true →
    Answers (.definePosition tag pos a) s tag .definePosition .guarded .none)
  ∧ (∀ (tag pos k targetKind target side code priority listen : Nat) (s : State),
    let c := Instr.defineSpeaker tag pos k targetKind target side code priority listen
    pos < 24 → k < 12 → (targetKind = 0 ∨ (targetKind = 1 ∧ target < 192) ∨ (targetKind = 2 ∧ target < 32)) →
    side < 2 → priority < 2 → listen < 2 → s.part.guardOf 2 ≠ .opened → s.takes c = true →
    Answers c s tag .defineSpeaker .guarded .none)
  ∧ ∀ (tag g : Nat) (members : List (Nat × Nat)) (talkCode revoke : Nat) (s : State),
    let c := Instr.defineGroup tag g members talkCode revoke
    g < 32 → (∀ m ∈ members, m.1 < 24 ∧ m.2 < 2) → (members.map Prod.fst).Nodup → s.part.guardOf 3 ≠ .opened →
    s.takes c = true → Answers c s tag .defineGroup .guarded .none

/-- DIGEST and its finish (R20, R22, R203): the digest starts with the first free op slot; the 536th record, group 31, ends it
with OK and its CRC, which OP_DONE carries under the command's tag. -/
def Obligations.DigestStartsAndFinishes : Prop :=
  (∀ (tag i : Nat) (s : State),
    let c := Instr.digest tag
    let p := s.part.took c
    s.part.cc.digest = none → i < 4 → vget s.part.ops i none = none →
    (∀ j, j < i → (vget s.part.ops j none).isSome = true) → s.takes c = true →
    ∃ t, exec c s = .next t ∧ Replied t tag .digest .accepted .none
      ∧ Leaves s t { p with
          ops := vset p.ops i (some { tag := tag, op := .digest, result := none })
          cc := { p.cc with digest := some { next := 0, crc := 0xFFFFFFFF } } })
  ∧ (∀ (tag : Nat) (s : State), s.takes (.digest tag) = true →
      (s.part.cc.digest ≠ none → Answers (.digest tag) s tag .digest .wrongState .none)
      ∧ (s.part.cc.digest = none → (∀ j, j < 4 → (vget s.part.ops j none).isSome = true) →
          Answers (.digest tag) s tag .digest .opsFull .none))
  ∧ ∀ (crc : BitVec 32) (i tag : Nat) (s : State),
    s.part.cc.digest = some { next := 535, crc := crc } → s.part.opsDone = [] → i < 4 →
    vget s.part.ops i none = some { tag := tag, op := .digest, result := none } →
    (∀ j, j < i → ∀ x, vget s.part.ops j none = some x → x.op = .digest → x.result ≠ none) → s.roomy →
    ∃ t, exec .digestFinish s = .next t
      ∧ Told t (.opDone tag .digest (.ok (crc32Feed crc (s.part.group 31).digestBytes ^^^ 0xFFFFFFFF)))
      ∧ t.part.cc = { s.part.cc with digest := none } ∧ t.part.ops = vset s.part.ops i none ∧ t.part.opsDone = []
      ∧ t.part.mx = s.part.mx ∧ t.part.cue = s.part.cue ∧ t.part.cu = s.part.cu ∧ t.part.tu = s.part.tu
      ∧ t.part.au = s.part.au ∧ t.part.ports = s.part.ports ∧ t.part.conds = s.part.conds

/-- A provisioning write disturbs a running digest (R23): the digest stops, its slot's result is DISTURBED, and OP_DONE says
so under the DIGEST command's tag. The writes are the accepted commands of R23's list. -/
def Obligations.ProvisioningWriteDisturbsDigest : Prop :=
  ∀ (c : Instr) (tag : Nat) (cmd : Cmd) (info : Info) (d : DigestRun) (i dtag : Nat) (s t : State),
    c.host? = some (tag, cmd) →
    cmd ∈ [Cmd.defineLine, .removeLine, .definePosition, .setDeviceGain, .setTrim, .defineSpeaker, .speakerGain,
      .defineGroup] →
    s.takes c = true → s.part.cc.digest = some d → s.part.opsDone = [] → i < 4 →
    vget s.part.ops i none = some { tag := dtag, op := .digest, result := none } →
    (∀ j, j < i → ∀ x, vget s.part.ops j none = some x → x.op = .digest → x.result ≠ none) →
    (∀ x ∈ s.link.replies, x.tag = tag → x.answer = none) → (∀ k r' i', s.link.tx ≠ some (.reply tag k r' i')) →
    exec c s = .next t → Replied t tag cmd .ok info →
    t.part.cc.digest = none
      ∧ ((vget t.part.ops i none = some { tag := dtag, op := .digest, result := some .disturbed } ∧ i ∈ t.part.opsDone)
        ∨ (vget t.part.ops i none = none ∧ Told t (.opDone dtag .digest .disturbed)))

/-- READ_LINE and READ_POSITION (R45, R46): the reply reports the record, and nothing changes but what the check of a damaged
line record does. -/
def Obligations.ReadLineAndPosition : Prop :=
  (∀ (tag n : Nat) (s : State),
    let c := Instr.readLine tag n
    let p := (s.part.took c).useLine n
    n < 192 → s.takes c = true →
    ∃ t, exec c s = .next t ∧ Leaves s t p
      ∧ Replied t tag .readLine .ok (.line { line := p.line n, port := p.port n }))
  ∧ (∀ (tag pos : Nat) (s : State), pos < 24 → s.takes (.readPosition tag pos) = true →
    ∃ t r, exec (.readPosition tag pos) s = .next t ∧ Leaves s t (s.part.took (.readPosition tag pos))
      ∧ Replied t tag .readPosition .ok (.position r) ∧ r.position = s.part.position pos
      ∧ r.slots.length = 12
      ∧ (∀ k, k < 12 → ∃ a, r.slots[k]? = some (s.part.slot pos k, a)
          ∧ ∀ src, (s.part.slot pos k).target.source? = some src → a = vget s.part.cc.activity src false)
      ∧ (∀ o, o < 4 → r.outputs[o]? = some ((s.part.mixList (4 * pos + o)).length,
            vget s.part.mx.omitted (4 * pos + o) false))
      ∧ r.ducking = (s.part.mixPos pos).ducking
      ∧ ∀ x, x ∈ r.groups ↔ x.group < 32 ∧ (s.part.group x.group).hasMember pos = true
          ∧ x.talkers = (s.part.group x.group).talkers ∧ x.waiters = (s.part.group x.group).waiters)
  ∧ ∀ (tag n : Nat) (s : State),
    (192 ≤ n → s.takes (.readLine tag n) = true → Answers (.readLine tag n) s tag .readLine .badValue .none)
    ∧ (24 ≤ n → s.takes (.readPosition tag n) = true →
        Answers (.readPosition tag n) s tag .readPosition .badValue .none)

/-! ### Handsets and lines -/

/-- SEIZE (R62, R63, R31, R34): one that passes every check moves the line as R63's table says, appends the device to the line
and the line to the device, hands LSU the lead of the new state, tells LINE_STATE with the table's cause, and touches no other
line, position, group, route or guard, and no list of an output R93 does not name. -/
def Obligations.SeizeConnects : Prop :=
  ∀ (tag n pos dev : Nat) (d : Dev) (s : State),
    let c := Instr.seize tag n pos dev
    let p := (s.part.took c).useLine n
    let l := p.line n
    let mv := seizeMove l.prov.kind l.state (p.farLead n)
    let p1 := p.askTap n pos d
    let p2 := if l.state = .probing then p1.abortProbe n else p1
    let q := (p2.setLine n (l.seized mv.1)).attach n (pos, d)
    let outs := occupantOuts q n (pos, d) ++ stateOuts p n l (l.seized mv.1)
    handsetOf dev = some d → n < 192 → pos < 24 → seizeCheck p n pos d = none →
    answerRefuses l.prov.policy p1.cu.answer = none → editFits q.mx (editOf q outs) = true → s.takes c = true →
    ∃ t, exec c s = .next t ∧ Replied t tag .seize .ok .none
      ∧ (l.prov.kind = .ringdown → (l.state = .idle ∨ l.state = .probing) →
          (t.part.line n).state = if p.farLead n then .connected else .calling)
      ∧ (l.prov.kind = .manual → (l.state = .idle ∨ l.state = .probing) → (t.part.line n).state = .connected)
      ∧ (l.prov.kind ≠ .hoot → l.state = .ringingIn → (t.part.line n).state = .connected)
      ∧ (l.prov.kind = .ringdown → l.state = .held →
          (t.part.line n).state = if p.farLead n then .connected else .clearing)
      ∧ (l.prov.kind = .manual → l.state = .held → (t.part.line n).state = .connected)
      ∧ ((l.state = .calling ∨ l.state = .connected ∨ l.state = .clearing ∨ l.state = .opened) →
          (t.part.line n).state = l.state)
      ∧ (t.part.line n).occupants = l.occupants ++ [(pos, d)] ∧ (t.part.line n).prov = l.prov
      ∧ (t.part.line n).privacy = l.privacy ∧ (t.part.line n).lingering = false
      ∧ (t.part.line n).holdOwner = none ∧ (t.part.line n).recallTime = none ∧ (t.part.line n).recallExpired = none
      ∧ (t.part.line n).ringTimeout = none ∧ (t.part.line n).probePhase = none
      ∧ (t.part.position pos).linesOf d = (p.position pos).linesOf d ++ [n]
      ∧ (t.part.mixPos pos).busy = true
      ∧ (t.part.port n).outLead = leadFor (t.part.line n) (t.part.port n).burst
      ∧ KeepsLists p t.part outs ∧ Keeps p t.part n [pos]
      ∧ t.part.au = { p.au with probes := if l.state = .probing then p.au.probes.filter (fun r => r.line ≠ n)
                                          else p.au.probes }
      ∧ t.part.events = p.events ∧ t.link.still = s.link.still ∧ t.pending = s.pending
      ∧ (s.roomy → Told t (.lineState n (t.part.line n).state mv.2 (l.occupants ++ [(pos, d)]) l.privacy none
          l.oosCause))

/-- The audio of an accepted SEIZE (R63, R93, R94, R97, R98, R101, R102), whatever the state the line was in and whatever
its record policy: the handset's earpiece then holds an ESSENTIAL entry for the line, and the line's send one for the
handset's microphone; and where the handset is tapped, the tap's recorder channel holds one for each of the two. None is
poisoned. A line of kind HOOT has its send only while OPEN, the one state in service that R42 gives it. -/
def Obligations.SeizeConnectsAudio : Prop :=
  ∀ (tag n pos dev : Nat) (d : Dev) (s t : State),
    let c := Instr.seize tag n pos dev
    let p := (s.part.took c).useLine n
    let has := fun (out src : Nat) => ∃ e ∈ t.part.mixList out, e.source = src ∧ e.essential = true ∧ e.poisoned = false
    handsetOf dev = some d → n < 192 → pos < 24 → s.takes c = true → p.cu.answer = none →
    (∀ x ∈ s.link.replies, x.tag = tag → x.answer = none) → (∀ k r' i', s.link.tx ≠ some (.reply tag k r' i')) →
    exec c s = .next t → Replied t tag .seize .ok .none →
    has (earOutput pos d) n
      ∧ ((p.line n).prov.kind ≠ .hoot ∨ (p.line n).state = .opened → has (sendOutput n) (micSource pos d))
      ∧ ∀ ch x, ch < 32 → vget t.part.cu.taps ch none = some x → x.position = pos → x.device = d →
          has (recOutput ch) n ∧ has (recOutput ch) (micSource pos d)

/-- Taps (R62 check 10, R145, R146, R148 to R154): an untapped device that seizes a line whose policy is not NONE asks CU; a
positive answer opens a tap on the lowest FREE channel with the next call reference and writes TAP_OPEN, then a LINE_JOIN
for each line the device held before, as far as the space rule lets, the tap's gap flag telling of the rest; a negative one
refuses a REQUIRED line and leaves a BEST_EFFORT join untapped. A tapped device's join of a further line, of any policy,
writes LINE_JOIN under the space rule, or sets the tap's gap flag, and enters the tap's line list, or the count beyond its
8. The leave of a tapped device's last line closes its tap: LINE_LEAVE under the space rule, then TAP_CLOSE with close cause
DEVICE_IDLE, whatever room the journal has, and the channel becomes FREE. -/
def Obligations.TapsOpenAndClose : Prop :=
  (∀ (tag n pos dev ch : Nat) (d : Dev) (s : State),
      let c := Instr.seize tag n pos dev
      let p := (s.part.took c).useLine n
      let l := p.line n
      let mv := seizeMove l.prov.kind l.state (p.farLead n)
      let p1 := p.askTap n pos d
      let p2 := if l.state = .probing then p1.abortProbe n else p1
      let q := (p2.setLine n (l.seized mv.1)).attach n (pos, d)
      let outs := occupantOuts q n (pos, d) ++ stateOuts p n l (l.seized mv.1)
      let free := 1024 - p.cu.journal.length
      let held := (p.position pos).linesOf d
      let room := free - p.cu.openTaps - 2
      let joined : Nat → Nat → JEntry := fun j m =>
        { seq := (p.cu.seq + 1 + j) % 2 ^ 32, time := p.tu.floorTime, kind := .lineJoin, gap := false, channel := some ch,
          position := some pos, device := some d, line := some m, ref := some p.cu.callRef }
      handsetOf dev = some d → n < 192 → pos < 24 → seizeCheck p n pos d = none → l.prov.policy ≠ .none →
      p.cu.answer = none →
      (∀ k x, vget p.cu.taps k none = some x → ¬ (x.position = pos ∧ x.device = d)) → s.takes c = true →
      (ch < 32 → vget p.cu.taps ch none = none → (∀ k, k < ch → (vget p.cu.taps k none).isSome = true) →
        p.cu.openTaps + 2 ≤ free → held.Nodup → n ∉ held → editFits q.mx (editOf q outs) = true →
        ∃ t, exec c s = .next t ∧ Replied t tag .seize .ok .none
          ∧ vget t.part.cu.taps ch none = some
              { position := pos, device := d, ref := p.cu.callRef, openTime := p.tu.floorTime, lines := n :: held,
                beyond := 0, gap := decide (room < held.length) }
          ∧ (∀ k, k ≠ ch → vget t.part.cu.taps k none = vget p.cu.taps k none)
          ∧ t.part.cu.callRef = (if 4294967294 ≤ p.cu.callRef then 1 else p.cu.callRef + 1)
          ∧ t.part.cu.journal = p.cu.journal ++ [
              { seq := p.cu.seq, time := p.tu.floorTime, kind := .tapOpen, gap := p.cu.dropped, channel := some ch,
                position := some pos, device := some d, line := some n, ref := some p.cu.callRef }]
              ++ (held.take room).mapIdx joined
          ∧ t.part.cu.seq = (p.cu.seq + 1 + (held.take room).length) % 2 ^ 32 ∧ t.part.cu.dropped = false ∧ t.part.cu.answer = none)
      ∧ ((∀ k, k < 32 → (vget p.cu.taps k none).isSome = true) → l.prov.policy = .required →
          ∃ t, exec c s = .next t ∧ Replied t tag .seize .noRecorder .none ∧ Leaves s t p)
      ∧ ((∃ k, k < 32 ∧ vget p.cu.taps k none = none) → free < p.cu.openTaps + 2 → l.prov.policy = .required →
          ∃ t, exec c s = .next t ∧ Replied t tag .seize .journalFull .none ∧ Leaves s t p)
      ∧ ((∀ k, k < 32 → (vget p.cu.taps k none).isSome = true) → l.prov.policy = .bestEffort →
          editFits q.mx (editOf q outs) = true → p.cu.openTaps < free →
          ∃ t, exec c s = .next t ∧ Replied t tag .seize .ok .none ∧ t.part.cu.taps = p.cu.taps
            ∧ t.part.cu.callRef = p.cu.callRef ∧ t.part.cu.answer = none
            ∧ t.part.cu.journal = p.cu.journal ++ [
                { seq := p.cu.seq, time := p.tu.floorTime, kind := .tapDenied, gap := p.cu.dropped, position := some pos,
                  device := some d, line := some n }]))
  ∧ (∀ (tag n pos dev ch : Nat) (d : Dev) (x : Tap) (s : State),
      let c := Instr.seize tag n pos dev
      let p := (s.part.took c).useLine n
      let l := p.line n
      let mv := seizeMove l.prov.kind l.state (p.farLead n)
      let p2 := if l.state = .probing then p.abortProbe n else p
      let q := (p2.setLine n (l.seized mv.1)).attach n (pos, d)
      let outs := occupantOuts q n (pos, d) ++ stateOuts p n l (l.seized mv.1)
      let roomy := p.cu.openTaps < 1024 - p.cu.journal.length
      handsetOf dev = some d → n < 192 → pos < 24 → seizeCheck p n pos d = none → p.cu.answer = none → ch < 32 →
      vget p.cu.taps ch none = some x → x.position = pos → x.device = d →
      (∀ k y, k < ch → vget p.cu.taps k none = some y → ¬ (y.position = pos ∧ y.device = d)) →
      editFits q.mx (editOf q outs) = true → s.takes c = true →
      ∃ t, exec c s = .next t ∧ Replied t tag .seize .ok .none
        ∧ vget t.part.cu.taps ch none = some { x with
            gap := x.gap || !decide roomy,
            lines := if n ∈ x.lines then x.lines else if x.lines.length < 8 then x.lines ++ [n] else x.lines,
            beyond := if n ∈ x.lines ∨ x.lines.length < 8 then x.beyond else min 255 (x.beyond + 1) }
        ∧ (∀ k, k ≠ ch → vget t.part.cu.taps k none = vget p.cu.taps k none)
        ∧ t.part.cu.callRef = p.cu.callRef ∧ t.part.cu.answer = none
        ∧ t.part.cu.journal = p.cu.journal ++ (if roomy then [
            { seq := p.cu.seq, time := p.tu.floorTime, kind := .lineJoin, gap := p.cu.dropped, channel := some ch,
              position := some pos, device := some d, line := some n, ref := some x.ref }] else []))
  ∧ ∀ (tag n pos dev ch : Nat) (d : Dev) (x : Tap) (s : State),
      let c := Instr.leave tag n pos dev
      let p := (s.part.took c).useLine n
      let l := p.line n
      handsetOf dev = some d → n < 192 → pos < 24 → l.state ≠ .unprovisioned → (pos, d) ∈ l.occupants →
      (p.position pos).linesOf d = [n] → ch < 32 → vget p.cu.taps ch none = some x → x.position = pos → x.device = d →
      (∀ k y, k < ch → vget p.cu.taps k none = some y → ¬ (y.position = pos ∧ y.device = d)) → p.cu.answer = none →
      s.takes c = true →
      let roomy := p.cu.openTaps < 1024 - p.cu.journal.length
      let left : JEntry := { seq := p.cu.seq, time := p.tu.floorTime, kind := .lineLeave, gap := p.cu.dropped,
                             channel := some ch, position := some pos, device := some d, line := some n, ref := some x.ref }
      let close : JEntry := { seq := if roomy then (p.cu.seq + 1) % 2 ^ 32 else p.cu.seq, time := p.tu.floorTime,
                              kind := .tapClose, gap := if roomy then x.gap else true, channel := some ch,
                              position := some pos, device := some d, ref := some x.ref, close := some .deviceIdle }
      ∃ t, exec c s = .next t ∧ Replied t tag .leave .ok .none
        ∧ t.part.cu.journal = p.cu.journal ++ (if roomy then [left, close] else [close])
        ∧ vget t.part.cu.taps ch none = none ∧ (∀ k, k ≠ ch → vget t.part.cu.taps k none = vget p.cu.taps k none)
        ∧ t.part.cu.callRef = p.cu.callRef

/-- The checks of SEIZE in their order (R62 checks 1 to 9): the first that fails gives the result, and the part is as the
check of the line's record left it. A line OUT_OF_SERVICE with cause MEMORY is refused with OUT_OF_SERVICE whatever its
appearance set, which the part no longer uses (R61; where that stands among the checks: log 25). -/
def Obligations.SeizeChecksInOrder : Prop :=
  ∀ (tag n pos dev : Nat) (s : State),
    let c := Instr.seize tag n pos dev
    let p := (s.part.took c).useLine n
    let l := p.line n
    let refused := fun (r : Result) => ∃ t, exec c s = .next t ∧ Replied t tag .seize r .none ∧ Leaves s t p
    s.takes c = true →
    ((192 ≤ n ∨ 24 ≤ pos ∨ 2 ≤ dev) → Answers c s tag .seize .badValue .none)
    ∧ (n < 192 → pos < 24 → ∀ d, handsetOf dev = some d →
      (l.state = .unprovisioned → refused .wrongState)
      ∧ (l.state ≠ .unprovisioned →
        ((p.position pos).enabled = false → refused .positionOff)
        ∧ ((p.position pos).enabled = true →
          (l.state = .outOfService → l.oosCause = some .memory → refused .outOfService)
          ∧ (l.state ≠ .outOfService ∨ l.oosCause ≠ some .memory → l.prov.appear.getLsbD pos = false →
            refused .notAppearing)
          ∧ (l.prov.appear.getLsbD pos = true →
            (l.state = .outOfService → refused .outOfService)
            ∧ (l.state ≠ .outOfService →
              ((pos, d) ∈ l.occupants → refused .duplicate)
              ∧ ((pos, d) ∉ l.occupants →
                (4 ≤ ((p.position pos).linesOf d).length → refused .deviceFull)
                ∧ (((p.position pos).linesOf d).length < 4 →
                  (4 ≤ l.occupants.length → refused .lineFull)
                  ∧ (l.occupants.length < 4 → l.privacy = true →
                    (if l.state = .held then l.holdOwner ≠ some pos else ∃ o ∈ l.occupants, o.1 ≠ pos) →
                    refused .privateLine))))))))

/-- LEAVE (R64, R31, R34, R36, R153): the device and the line leave each other's lists; the last occupant takes a RINGDOWN
line to IDLE, lingering if the far lead is up, and a MANUAL line to IDLE; a HOOT stays OPEN. -/
def Obligations.LeaveRemovesOccupant : Prop :=
  ∀ (tag n pos dev : Nat) (d : Dev) (s : State),
    let c := Instr.leave tag n pos dev
    let p := (s.part.took c).useLine n
    let l := p.line n
    let rest := l.occupants.filter (· ≠ (pos, d))
    handsetOf dev = some d → n < 192 → pos < 24 → l.state ≠ .unprovisioned → (pos, d) ∈ l.occupants →
    s.takes c = true →
    ∃ t, exec c s = .next t ∧ Replied t tag .leave .ok .none
      ∧ (rest ≠ [] ∨ l.prov.kind = .hoot → t.part.line n = { l with occupants := rest })
      ∧ (rest = [] → l.prov.kind ≠ .hoot → t.part.line n =
          { prov := l.prov, state := .idle, oosCause := l.oosCause, damage := l.damage,
            lingering := l.prov.kind == .ringdown && p.farLead n })
      ∧ (t.part.position pos).linesOf d = ((p.position pos).linesOf d).filter (· ≠ n)
      ∧ (t.part.port n).outLead = leadFor (t.part.line n) (t.part.port n).burst
      ∧ ((t.part.line n).state ≠ .connected → (t.part.port n).burst = 0)
      ∧ Keeps p t.part n [pos] ∧ t.part.au = p.au ∧ t.part.events = p.events
      ∧ t.link.still = s.link.still ∧ t.pending = s.pending
      ∧ ((∀ k x, vget p.cu.taps k none = some x → ¬ (x.position = pos ∧ x.device = d)) → t.part.cu = p.cu)
      ∧ (s.roomy → Told t (.lineState n (t.part.line n).state .left rest (t.part.line n).privacy
          (t.part.line n).holdOwner l.oosCause))

/-- HOLD (R54, R65): the sole occupant leaves, the line is HELD for its position with the position's recall time as deadline,
and privacy and the far end's lead stay. -/
def Obligations.HoldParksLine : Prop :=
  ∀ (tag n pos dev : Nat) (d : Dev) (s : State),
    let c := Instr.hold tag n pos dev
    let p := (s.part.took c).useLine n
    let l := p.line n
    handsetOf dev = some d → n < 192 → pos < 24 → s.takes c = true →
    (l.state = .connected → l.occupants = [(pos, d)] →
      ∃ t, exec c s = .next t ∧ Replied t tag .hold .ok .none
        ∧ t.part.line n = { l with
            state := .held, occupants := [], holdOwner := some pos, recallExpired := some false,
            recallTime := if (p.position pos).recallTime = 0 then none else some (16000 * (p.position pos).recallTime) }
        ∧ (t.part.position pos).linesOf d = ((p.position pos).linesOf d).filter (· ≠ n)
        ∧ (l.prov.kind = .ringdown → (t.part.port n).outLead = true)
        ∧ (l.prov.kind = .manual → (t.part.port n).outLead = false) ∧ (t.part.port n).burst = 0
        ∧ Keeps p t.part n [pos] ∧ t.part.au = p.au ∧ t.part.events = p.events
        ∧ t.link.still = s.link.still ∧ t.pending = s.pending
        ∧ (s.roomy → Told t (.lineState n .held .hold [] l.privacy (some pos) l.oosCause)))
    ∧ (l.state ≠ .connected →
        ∃ t, exec c s = .next t ∧ Replied t tag .hold .wrongState .none ∧ Leaves s t p)
    ∧ (l.state = .connected → (pos, d) ∉ l.occupants →
        ∃ t, exec c s = .next t ∧ Replied t tag .hold .notOccupant .none ∧ Leaves s t p)
    ∧ (l.state = .connected → (pos, d) ∈ l.occupants → l.occupants ≠ [(pos, d)] →
        ∃ t, exec c s = .next t ∧ Replied t tag .hold .lineShared .none ∧ Leaves s t p)

/-- RELEASE_LINE (R68): every occupant leaves and the line rests as the table of R68 says; where nothing is up the command is
answered OK without a change. -/
def Obligations.ReleaseLineClears : Prop :=
  ∀ (tag n : Nat) (s : State),
    let c := Instr.releaseLine tag n
    let p := (s.part.took c).useLine n
    let l := p.line n
    n < 192 → s.takes c = true → (∀ o ∈ l.occupants, ∀ e k, (p.position o.1).sk = some e → e.through = some k → k < 12) →
    ((l.state = .idle ∨ l.state = .probing ∨ l.state = .outOfService ∨ (l.state = .opened ∧ l.occupants = [])) →
      ∃ t, exec c s = .next t ∧ Replied t tag .releaseLine .ok .none ∧ Leaves s t p)
    ∧ (l.state = .unprovisioned →
      ∃ t, exec c s = .next t ∧ Replied t tag .releaseLine .wrongState .none ∧ Leaves s t p)
    ∧ ((l.state = .ringingIn ∨ l.state = .calling ∨ l.state = .connected ∨ l.state = .clearing ∨ l.state = .held
        ∨ (l.state = .opened ∧ l.occupants ≠ [])) →
      ∃ t, exec c s = .next t ∧ Replied t tag .releaseLine .ok .none
        ∧ (t.part.line n).occupants = [] ∧ (t.part.line n).privacy = false
        ∧ (l.prov.kind ≠ .hoot → (t.part.line n).state = .idle ∧ (t.part.line n).holdOwner = none
            ∧ (t.part.line n).recallTime = none ∧ (t.part.line n).recallExpired = none
            ∧ (t.part.line n).ringTimeout = none)
        ∧ (l.prov.kind = .hoot → (t.part.line n).state = l.state)
        ∧ (l.prov.kind = .ringdown → l.state = .ringingIn → (t.part.line n).lingering = true)
        ∧ (l.prov.kind = .ringdown → (l.state = .connected ∨ l.state = .held) →
            (t.part.line n).lingering = p.farLead n)
        ∧ (l.prov.kind = .ringdown → (l.state = .calling ∨ l.state = .clearing) → (t.part.line n).lingering = false)
        ∧ (l.prov.kind = .manual → (t.part.line n).lingering = false ∧ (t.part.port n).burst = 0)
        ∧ (l.prov.kind ≠ .hoot ∨ l.state = .opened → (t.part.port n).outLead = false)
        ∧ (∀ o ∈ l.occupants, o.2 ≠ .sk → n ∉ (t.part.position o.1).linesOf o.2)
        ∧ (∀ o ∈ l.occupants, o.2 = .sk → o.1 < 24 → (t.part.position o.1).sk = none)
        ∧ Keeps p t.part n (l.occupants.map Prod.fst) ∧ t.part.au = p.au ∧ t.part.events = p.events
        ∧ t.link.still = s.link.still ∧ t.pending = s.pending)

/-- RING and SET_PRIVACY (R35, R66, R67): a ring starts a burst of 16000 frames, unless one runs; the privacy flag takes the
value asked for and LINE_STATE tells a change. -/
def Obligations.RingAndPrivacy : Prop :=
  (∀ (tag n : Nat) (s : State),
    let c := Instr.ring tag n
    let p := (s.part.took c).useLine n
    n < 192 → s.takes c = true →
    ((p.line n).state = .connected → (p.line n).prov.kind = .manual → (p.port n).burst = 0 →
      ∃ t, exec c s = .next t ∧ Replied t tag .ring .ok .none
        ∧ Leaves s t (p.setPort n { p.port n with burst := 16000, outLead := true }))
    ∧ ((p.line n).state = .connected → (p.line n).prov.kind = .manual → (p.port n).burst ≠ 0 →
      ∃ t, exec c s = .next t ∧ Replied t tag .ring .busy .none ∧ Leaves s t p)
    ∧ ((p.line n).state ≠ .connected ∨ (p.line n).prov.kind ≠ .manual →
      ∃ t, exec c s = .next t ∧ Replied t tag .ring .wrongState .none ∧ Leaves s t p))
  ∧ ∀ (tag n pos onOff : Nat) (v : Bool) (s : State),
    let c := Instr.setPrivacy tag n pos onOff
    let p := (s.part.took c).useLine n
    let l := p.line n
    n < 192 → pos < 24 → onOffOf onOff = some v → s.takes c = true →
    l.state ≠ .unprovisioned → l.prov.kind ≠ .hoot →
    ((∃ o ∈ l.occupants, o.1 = pos ∧ o.2 ≠ .sk) → (v = true → ∀ o ∈ l.occupants, o.1 = pos) →
      ∃ t, exec c s = .next t ∧ Replied t tag .setPrivacy .ok .none
        ∧ Leaves s t (p.setLine n { l with privacy := v })
        ∧ (s.roomy → l.privacy ≠ v → Told t (.lineState n l.state .privacy l.occupants v l.holdOwner l.oosCause)))
    ∧ ((∀ o ∈ l.occupants, o.1 = pos → o.2 = .sk) →
      ∃ t, exec c s = .next t ∧ Replied t tag .setPrivacy .notOccupant .none ∧ Leaves s t p)
    ∧ ((∃ o ∈ l.occupants, o.1 = pos ∧ o.2 ≠ .sk) → v = true → (∃ o ∈ l.occupants, o.1 ≠ pos) →
      ∃ t, exec c s = .next t ∧ Replied t tag .setPrivacy .lineShared .none ∧ Leaves s t p)

/-! ### Speakers and groups -/

/-- SK talk on a hoot (R75 to R77): an accepted press makes SK an occupant of the line, asserts its lead and marks the entry
and the slot; a release that names the target takes SK off again; a press with another target refuses, one with the same is
answered OK, and a release that does not name the target is answered OK. -/
def Obligations.HootTalkJoinsAndLeaves : Prop :=
  (∀ (tag pos k n : Nat) (s : State),
    let c := Instr.speakerTalkPress tag pos k
    let p := (s.part.took c).useLine n
    let l := p.line n
    let e : SkEntry := { target := .hoot n, through := some k, talking := true }
    let q := ((p.attach n (pos, .sk)).setSk pos (some e)).setSlot pos k { p.slot pos k with talking := true }
    pos < 24 → k < 12 → n < 192 → (s.part.position pos).enabled = true → (s.part.slot pos k).target = .hoot n →
    s.takes c = true →
    (∀ x, (s.part.position pos).sk = some x →
        (x.target = .hoot n → Answers c s tag .speakerTalk .ok .none)
        ∧ (x.target ≠ .hoot n → Answers c s tag .speakerTalk .deviceBusy .none))
    ∧ ((s.part.position pos).sk = none → l.state = .outOfService →
        ∃ t, exec c s = .next t ∧ Replied t tag .speakerTalk .outOfService .none ∧ Leaves s t p)
    ∧ ((s.part.position pos).sk = none → l.state ≠ .outOfService → 4 ≤ l.occupants.length →
        ∃ t, exec c s = .next t ∧ Replied t tag .speakerTalk .lineFull .none ∧ Leaves s t p)
    ∧ ((s.part.position pos).sk = none → l.state = .opened → l.prov.kind = .hoot → l.occupants.length < 4 →
        (editFits q.mx (editOf q [sendOutput n]) = false →
          ∃ t, exec c s = .next t ∧ Replied t tag .speakerTalk .mixFull .none ∧ Leaves s t p)
        ∧ (editFits q.mx (editOf q [sendOutput n]) = true →
          ∃ t, exec c s = .next t ∧ Replied t tag .speakerTalk .ok .none
            ∧ t.part.line n = { l with occupants := l.occupants ++ [(pos, .sk)] }
            ∧ t.part.position pos = { p.position pos with sk := some e }
            ∧ t.part.slot pos k = { p.slot pos k with talking := true }
            ∧ (t.part.port n).outLead = true
            ∧ KeepsLists p t.part [sendOutput n] ∧ Keeps p t.part n [pos] ∧ t.part.cu = p.cu ∧ t.part.au = p.au
            ∧ t.part.events = p.events ∧ t.link.still = s.link.still ∧ t.pending = s.pending
            ∧ (s.roomy → Told t (.lineState n .opened .joined (l.occupants ++ [(pos, .sk)]) l.privacy l.holdOwner
                l.oosCause)))))
  ∧ ∀ (tag pos k n : Nat) (s : State),
    let c := Instr.speakerTalkRelease tag pos k
    let p := (s.part.took c).useLine n
    let l := p.line n
    let rest := l.occupants.filter (· ≠ (pos, .sk))
    pos < 24 → k < 12 → n < 192 → (s.part.slot pos k).target = .hoot n → s.takes c = true →
    ((∀ x, (s.part.position pos).sk = some x → x.target ≠ .hoot n) → Answers c s tag .speakerTalk .ok .none)
    ∧ ∀ e, (s.part.position pos).sk = some e → e.target = .hoot n → (p.position pos).sk = some e →
        (∀ j, e.through = some j → j < 12) →
        ∃ t, exec c s = .next t ∧ Replied t tag .speakerTalk .ok .none
          ∧ t.part.line n = { l with occupants := rest }
          ∧ t.part.position pos = { p.position pos with sk := none }
          ∧ (∀ j, e.through = some j → t.part.slot pos j = { p.slot pos j with talking := false })
          ∧ (l.state = .opened → l.prov.kind = .hoot → (t.part.port n).outLead = !rest.isEmpty)
          ∧ KeepsLists p t.part [sendOutput n] ∧ Keeps p t.part n [pos] ∧ t.part.cu = p.cu ∧ t.part.au = p.au
          ∧ t.part.events = p.events ∧ t.link.still = s.link.still ∧ t.pending = s.pending
          ∧ (s.roomy → Told t (.lineState n l.state .left rest l.privacy l.holdOwner l.oosCause))

/-- A request for a group's floor (R75, R79, R80, R81, R87, R88): granted while fewer than 4 talk, the new talker beginning at
coefficient 0 at MX; set waiting while fewer than 8 wait, a priority member behind the last priority waiter and any other at
the end, with its place in the reply and the notice; otherwise refused with GROUP_FULL. -/
def Obligations.GroupTalkRequested : Prop :=
  ∀ (c : Instr) (tag pos g : Nat) (through : Option Nat) (cmd : Cmd) (s : State),
    let p := s.part.took c
    let r := s.part.group g
    let e := fun (b : Bool) => ({ target := .group g, through := through, talking := b } : SkEntry)
    GroupPress s c tag pos g through cmd → pos < 24 → g < 32 → (s.part.position pos).enabled = true →
    s.takes c = true →
    (r.hasMember pos = false → Answers c s tag cmd .notMember .none)
    ∧ (r.hasMember pos = true → ∀ x, (s.part.position pos).sk = some x →
        (x.target = .group g → Answers c s tag cmd .ok .none)
        ∧ (x.target ≠ .group g → Answers c s tag cmd .deviceBusy .none))
    ∧ (r.hasMember pos = true → (s.part.position pos).sk = none →
      (r.talkers.length < 4 →
        ∃ t, exec c s = .next t ∧ Replied t tag cmd .ok .granted
          ∧ Leaves s t (((p.setGroup g { r with talkers := r.talkers ++ [{ position := pos, idle := 0 }] }).setSk pos
              (some (e true))).handTalkers g)
          ∧ (t.part.busTalkers g).map BusTalker.position = r.talkers.map Talker.position ++ [pos]
          ∧ (∀ b ∈ t.part.busTalkers g, b ∈ s.part.busTalkers g ∨ b.coef = 0)
          ∧ (s.roomy → Told t (.talk g pos .granted none (r.talkers.length + 1) r.waiters.length)))
      ∧ (4 ≤ r.talkers.length → r.waiters.length < 8 → ∀ a b, r.waiters = a ++ b →
        (if r.priorityOf pos then
            (∀ w ∈ b, r.priorityOf w = false) ∧ ∀ w, a.getLast? = some w → r.priorityOf w = true
          else b = []) →
        ∃ t, exec c s = .next t ∧ Replied t tag cmd .ok (.waiting a.length)
          ∧ Leaves s t ((p.setGroup g { r with waiters := a ++ pos :: b }).setSk pos (some (e false)))
          ∧ (s.roomy → Told t (.talk g pos .waiting (some a.length) r.talkers.length (r.waiters.length + 1))))
      ∧ (4 ≤ r.talkers.length → 8 ≤ r.waiters.length → Answers c s tag cmd .groupFull .none))

/-- The end of a claim on a group's floor (R82, R83, R85 to R87): a talker's release and a revoke free the slot for the head
waiter, a waiter's release withdraws it, and each tells TALK; a release that names another target is answered OK, and a revoke
whose talker's count no longer stands at the revoke time does nothing. -/
def Obligations.GroupTalkEnds : Prop :=
  (∀ (c : Instr) (tag pos g : Nat) (cmd : Cmd) (s : State),
    let p := s.part.took c
    let r := s.part.group g
    let left := r.waiters.filter (· ≠ pos)
    GroupUnpress s c tag pos g cmd → pos < 24 → g < 32 → s.takes c = true →
    ((∀ x, (s.part.position pos).sk = some x → x.target ≠ .group g) → Answers c s tag cmd .ok .none)
    ∧ ∀ x, (s.part.position pos).sk = some x → x.target = .group g →
      (r.isTalker pos = true →
        ∃ t, exec c s = .next t ∧ Replied t tag cmd .ok .none ∧ FloorFreed s.part t.part g pos
          ∧ t.part.events = p.events ∧ t.link.still = s.link.still ∧ t.pending = s.pending
          ∧ (s.roomy →
            Told t (.talk g pos .released none (t.part.group g).talkers.length (t.part.group g).waiters.length)
            ∧ ∀ w, r.waiters.head? = some w →
              Told t (.talk g w .granted none (t.part.group g).talkers.length (t.part.group g).waiters.length)))
      ∧ (r.isTalker pos = false →
        ∃ t, exec c s = .next t ∧ Replied t tag cmd .ok .none
          ∧ Leaves s t ((p.setGroup g { r with
              waiters := left,
              talkers := if left = [] then r.talkers.map fun (x : Talker) => { x with idle := 0 } else r.talkers }).setSk
              pos none)
          ∧ (s.roomy → Told t (.talk g pos .withdrawn none r.talkers.length left.length))))
  ∧ ∀ (g pos : Nat) (s : State), g < 32 →
    let r := s.part.group g
    let due := 0 < r.revoke ∧ ∃ x ∈ r.talkers, x.position = pos ∧ x.idle = 16000 * r.revoke
    (due → ∃ t, exec (.idleRevoke g pos) s = .next t ∧ FloorFreed s.part t.part g pos
      ∧ t.part.events = s.part.events.erase (.idleRevoke g pos) ∧ t.link.still = s.link.still ∧ t.pending = s.pending
      ∧ (s.roomy → Told t (.talk g pos .revoked none (t.part.group g).talkers.length (t.part.group g).waiters.length)))
    ∧ (¬ due → ∃ t, exec (.idleRevoke g pos) s = .next t ∧ Leaves s t (s.part.took (.idleRevoke g pos)))

/-- Activity (R84, R89, R125): CC records the report, a talker whose microphone becomes active has its idle count set to 0,
and ACTIVITY is sent for a watched source. The end of a detector's hold makes the source INACTIVE, and its report takes the
event's place; that the below count waits at 3200 for this event, and the report's place, are the model's reading (log 9).
-/
def Obligations.ActivityReported : Prop :=
  (∀ (src : Nat) (active : Bool) (s : State), src < 304 →
    let c := Instr.activityEvent src active
    let p := s.part.took c
    let spoke := fun (x : Talker) => if micSource x.position .sk = src then ({ x with idle := 0 } : Talker) else x
    let heard := fun (r : Group) => ({ r with talkers := r.talkers.map spoke } : Group)
    ∃ t, exec c s = .next t
      ∧ Leaves s t { p with cc := { p.cc with
          activity := vset p.cc.activity src active,
          groups := if active = true ∧ src < 264 then p.cc.groups.map heard else p.cc.groups } }
      ∧ (s.roomy → (∃ pos k, pos < 24 ∧ k < 12 ∧ (s.part.position pos).enabled = true ∧ (s.part.slot pos k).listen = true
            ∧ (s.part.slot pos k).target.source? = some src) → Told t (.activity src active)))
  ∧ ∀ (src : Nat) (s : State), src < 264 →
    let c := Instr.detectorHoldExpiry src
    let p := s.part.took c
    let d := vget s.part.mx.detectors src {}
    (d.active = true → d.below = 3200 → ∀ evs,
      ((c ∉ s.part.events ∧ evs = s.part.events ++ [.activityEvent src false])
        ∨ ∃ a b, s.part.events = a ++ c :: b ∧ c ∉ a ∧ evs = a ++ .activityEvent src false :: b) →
      ∃ t, exec c s = .next t
        ∧ Leaves s t { p with
            mx := { p.mx with detectors := vset p.mx.detectors src { d with active := false, below := 0 } },
            events := evs })
    ∧ ((d.active = false ∨ d.below ≠ 3200) → ∃ t, exec c s = .next t ∧ Leaves s t p)

/-! ### Mixes -/

/-- REFRESH_OUTPUT and the rule of an edit (R91, R99, R101, R103, R105): the list is replaced by the derived one, every
ESSENTIAL entry placed; a source that stays keeps its word and its coefficients, a new one begins at applied 0; the order is
by source; the omitted flag says whether an OPTIONAL entry is missing; and no other list changes. READ_MIX (R92, R106)
reports the list and clears the clip flag. -/
def Obligations.RefreshAndReadMix : Prop :=
  (∀ (tag out : Nat) (s : State),
    let c := Instr.refreshOutput tag out
    let p := s.part.took c
    let ws := derive p out
    let old := p.mixList out
    out < 320 → s.takes c = true → editFits p.mx [(out, ws)] = true →
    ∃ t, exec c s = .next t
      ∧ Replied t tag .refreshOutput .ok
          (.refreshed (t.part.mixList out).length (vget t.part.mx.omitted out false))
      ∧ (∀ w ∈ ws, w.essential = true → ∃ e ∈ t.part.mixList out, e.source = w.source ∧ e.code = w.code
          ∧ e.essential = true ∧ e.duckable = w.duckable ∧ e.poisoned = false)
      ∧ (∀ e ∈ t.part.mixList out, ∃ w ∈ ws, e.source = w.source ∧ e.code = w.code ∧ e.essential = w.essential
          ∧ e.duckable = w.duckable)
      ∧ (∀ e ∈ t.part.mixList out, ∀ x ∈ old, x.source = e.source → x.poisoned = false →
          (∀ y ∈ old, y.source = e.source → y = x) →
          e.applied = x.applied ∧ e.target = x.target ∧ e.index = x.index)
      ∧ (∀ e ∈ t.part.mixList out, (∀ x ∈ old, x.source = e.source → x.poisoned = true) → e.applied = 0)
      ∧ (t.part.mixList out).Pairwise (fun a b => a.source < b.source) ∧ (t.part.mixList out).length ≤ 16
      ∧ (vget t.part.mx.omitted out false = true ↔ (t.part.mixList out).length < ws.length)
      ∧ KeepsLists p t.part [out]
      ∧ t.part.mx = { p.mx with
          lists := t.part.mx.lists, omitted := t.part.mx.omitted, damage := t.part.mx.damage, placed := t.part.mx.placed }
      ∧ t.part.cc = p.cc ∧ t.part.ports = p.ports ∧ t.part.cue = p.cue ∧ t.part.cu = p.cu ∧ t.part.tu = p.tu
      ∧ t.part.au = p.au ∧ t.part.events = p.events ∧ t.link.still = s.link.still ∧ t.pending = s.pending)
  ∧ (∀ (tag out : Nat) (s : State),
    let c := Instr.readMix tag out
    let p := s.part.took c
    out < 320 → s.takes c = true →
    ∃ t r, exec c s = .next t ∧ Replied t tag .readMix .ok (.mix r)
      ∧ Leaves s t { p with mx := { p.mx with clip := vset p.mx.clip out false } }
      ∧ r.output = out
      ∧ r.entries = ((p.mixList out).filter fun e => !e.poisoned).map (fun e =>
          { source := e.source, code := e.code, essential := e.essential, duckable := e.duckable, target := e.target,
            applied := e.applied })
      ∧ r.poisoned = (p.mixList out).countP Entry.poisoned
      ∧ r.omitted = vget p.mx.omitted out false ∧ r.clip = vget p.mx.clip out false ∧ r.used = p.mx.used)
  ∧ ∀ (tag out : Nat) (s : State), 320 ≤ out →
    (s.takes (.refreshOutput tag out) = true → Answers (.refreshOutput tag out) s tag .refreshOutput .badValue .none)
    ∧ (s.takes (.readMix tag out) = true → Answers (.readMix tag out) s tag .readMix .badValue .none)

/-! ### Cue players -/

/-- CUE_LOAD (R131, R133 to R136): the player first finishes the frame's advance (log 20); a load within a playing player's
window, or of a stopped player, writes its blocks and makes them valid; any other load of a playing player is refused with
WINDOW; the reply shows the pointer, after a WINDOW by the example of section 7.6 (log 14). -/
def Obligations.CueLoadWritesBlocks : Prop :=
  ∀ (tag k addressing value count first : Nat) (samples : List Sample) (s : State),
    let c := Instr.cueLoad tag k addressing value count samples
    let p := (s.part.took c).finishAdvance k
    let q := p.player k
    s.takes c = true →
    ((8 ≤ k ∨ 2 ≤ addressing ∨ count = 0 ∨ 3 < count ∨ 64 ≤ value ∨ (addressing = 1 ∧ value = 0)) →
      Answers c s tag .cueLoad .badValue .none)
    ∧ (k < 8 → 1 ≤ count → count ≤ 3 → value < 64 →
      ((addressing = 0 ∧ first = value) ∨ (addressing = 1 ∧ 1 ≤ value ∧ first = (q.block + value) % 64)) →
      let inside := fun (j : Nat) =>
        1 ≤ ((first + j) % 64 + 64 - q.block) % 64 ∧ ((first + j) % 64 + 64 - q.block) % 64 ≤ q.window
      (q.playing = true → (∃ j, j < count ∧ ¬ inside j) →
        ∃ t, exec c s = .next t ∧ Replied t tag .cueLoad .window (.pointer q.block q.sample) ∧ Leaves s t p)
      ∧ ((q.playing = true → ∀ j, j < count → inside j) →
        ∃ t, exec c s = .next t ∧ Replied t tag .cueLoad .ok (.loaded first q.block q.sample)
          ∧ Leaves s t (p.setPlayer k { q with ring := (t.part.player k).ring, valid := (t.part.player k).valid })
          ∧ (∀ j i, j < count → i < 32 →
              vget (vget (t.part.player k).ring ((first + j) % 64) (Vector.replicate 32 0)) i 0
                = samples.getD (32 * j + i) 0)
          ∧ (∀ j, j < count → vget (t.part.player k).valid ((first + j) % 64) false = true)
          ∧ ∀ b, b < 64 → (∀ j, j < count → b ≠ (first + j) % 64) →
              vget (t.part.player k).ring b (Vector.replicate 32 0) = vget q.ring b (Vector.replicate 32 0)
              ∧ vget (t.part.player k).valid b false = vget q.valid b false))

/-- CUE_START, CUE_STOP, CUE_CONFIG, READ_CUE and the block boundary (R131, R132, R137 to R140): the pointer enters a block,
which is judged once; a SINGLE player spends the block it leaves; a stop holds the pointer; and the CUE_UNDERRUN cause follows
the underrun. A start, a stop and a reading first finish the frame's advance: a boundary that the frame has come to and that
still waits is crossed as the boundary's own event crosses it (log 20). -/
def Obligations.CuePlayersRun : Prop :=
  (∀ (tag k mode block : Nat) (s : State),
    let c := Instr.cueStart tag k mode block
    let p := (s.part.took c).finishAdvance k
    let q := p.player k
    let under := !(vget q.valid block false)
    s.takes c = true →
    ((8 ≤ k ∨ 2 ≤ mode ∨ 64 ≤ block) → Answers c s tag .cueStart .badValue .none)
    ∧ (k < 8 → mode < 2 → block < 64 →
      ∃ t, exec c s = .next t ∧ Replied t tag .cueStart .ok .none
        ∧ Leaves s t { p.setPlayer k { q with
              continuous := mode == 1, playing := true, block := block, sample := 0, underrun := under } with
            conds := vset p.conds (9 + k) ((vget p.conds (9 + k) {}).hear under) }))
  ∧ (∀ (tag k : Nat) (s : State),
    let c := Instr.cueStop tag k
    let p := (s.part.took c).finishAdvance k
    s.takes c = true →
    (8 ≤ k → Answers c s tag .cueStop .badValue .none)
    ∧ (k < 8 → ∃ t, exec c s = .next t ∧ Replied t tag .cueStop .ok .none
        ∧ Leaves s t { p.setPlayer k { p.player k with playing := false, underrun := false } with
            conds := vset p.conds (9 + k) ((vget p.conds (9 + k) {}).hear false) }))
  ∧ (∀ (tag k window : Nat) (s : State),
    let c := Instr.cueConfig tag k window
    let p := s.part.took c
    let w := max 1 (min window 63)
    s.takes c = true →
    (8 ≤ k → Answers c s tag .cueConfig .badValue .none)
    ∧ (k < 8 → ∃ t, exec c s = .next t ∧ Replied t tag .cueConfig .ok (.window w)
        ∧ Leaves s t (p.setPlayer k { p.player k with window := w })))
  ∧ (∀ (tag k : Nat) (s : State),
    let p := (s.part.took (.readCue tag k)).finishAdvance k
    let q := p.player k
    s.takes (.readCue tag k) = true →
    (8 ≤ k → Answers (.readCue tag k) s tag .readCue .badValue .none)
    ∧ (k < 8 → ∃ t, exec (.readCue tag k) s = .next t ∧ Leaves s t p ∧ Replied t tag .readCue .ok (.cue
        { playing := q.playing, continuous := q.continuous, block := q.block, sample := q.sample, window := q.window,
          underrun := q.underrun, valid := q.valid })))
  ∧ (∀ (k : Nat) (s : State), k < 8 →
    let q := (s.part.finishAdvance k).player k
    let o := s.part.player k
    (.cueBlockBoundary k ∉ s.part.events → s.part.finishAdvance k = s.part)
    ∧ (.cueBlockBoundary k ∈ s.part.events → o.playing = true → o.sample = 31 →
        q.block = (o.block + 1) % 64 ∧ q.sample = 0 ∧ q.playing = true
        ∧ (o.continuous = false → o.block < 64 → vget q.valid o.block true = false)
        ∧ (s.part.finishAdvance k).events = s.part.events.erase (.cueBlockBoundary k)))
  ∧ ∀ (k : Nat) (s : State), k < 8 →
    let c := Instr.cueBlockBoundary k
    let p := s.part.took c
    let q := p.player k
    let valid := if q.continuous then q.valid else vset q.valid q.block false
    let under := !(vget valid ((q.block + 1) % 64) false)
    (q.playing = true → q.sample = 31 →
      ∃ t, exec c s = .next t
        ∧ Leaves s t { p.setPlayer k { q with
              valid := valid, block := (q.block + 1) % 64, sample := 0, underrun := under } with
            conds := vset p.conds (9 + k) ((vget p.conds (9 + k) {}).hear under) }
        ∧ (s.roomy → under = true → (vget p.conds (9 + k) {}).cause = false → (vget p.conds (9 + k) {}).latch = false →
            Told t (.condition (9 + k))))
    ∧ ((q.playing = false ∨ q.sample ≠ 31) → ∃ t, exec c s = .next t ∧ Leaves s t p)

/-! ### Journal and time -/

/-- JOURNAL_FETCH, JOURNAL_RELEASE and READ_TAP (R158 to R162, R208): a fetch reports up to the clamped count of entries
from the place its number names, 20 bytes each, and changes nothing; a release frees the entries up to its number, and the
JOURNAL_HIGH cause is judged again; a tap is reported with the lines of its device. -/
def Obligations.JournalFetchReleaseTap : Prop :=
  (∀ (tag : Nat) (start : BitVec 32) (count : Nat) (s : State),
    let c := Instr.journalFetch tag start count
    let j := s.part.cu.journal
    s.takes c = true →
    ∃ t r, exec c s = .next t ∧ Replied t tag .journalFetch .ok (.fetched r) ∧ Leaves s t (s.part.took c)
      ∧ r.used = j.length ∧ r.oldest = j.head?.map JEntry.seq ∧ r.dropped = s.part.cu.dropped
      ∧ r.count = r.entries.length ∧ (∀ b ∈ r.entries, b.length = 20)
      ∧ (∀ k, s.part.cu.locate start = .held k →
          r.entries = ((j.drop k).take (max 1 (min count 8))).map JEntry.bytes)
      ∧ (s.part.cu.locate start = .before → r.entries = (j.take (max 1 (min count 8))).map JEntry.bytes)
      ∧ (s.part.cu.locate start = .after → r.entries = []))
  ∧ (∀ (tag : Nat) (upTo : BitVec 32) (k : Nat) (s : State),
    let c := Instr.journalRelease tag upTo
    let p := s.part.took c
    let rest := p.cu.journal.drop k
    (p.cu.locate upTo = .before → k = 0) → (p.cu.locate upTo = .after → k = p.cu.journal.length) →
    (∀ o, p.cu.locate upTo = .held o → k = o + 1) → s.takes c = true →
    ∃ t, exec c s = .next t ∧ Replied t tag .journalRelease .ok (.released k (rest.head?.map JEntry.seq) rest.length)
      ∧ Leaves s t { p with
          cu := { p.cu with journal := rest },
          conds := vset p.conds 17 ((vget p.conds 17 {}).hear (decide (896 ≤ rest.length))) })
  ∧ ∀ (tag ch : Nat) (s : State), s.takes (.readTap tag ch) = true →
    (32 ≤ ch → Answers (.readTap tag ch) s tag .readTap .badValue .none)
    ∧ (ch < 32 → vget s.part.cu.taps ch none = none → Answers (.readTap tag ch) s tag .readTap .ok (.tap none))
    ∧ ∀ x, vget s.part.cu.taps ch none = some x → Answers (.readTap tag ch) s tag .readTap .ok
        (.tap (some (x, (s.part.position x.position).linesOf x.device)))

/-- SET_TIME, STEER and the correction of a frame (R157, R166 to R168, R172, R174): a step sets floor time, marks the passed
entries late and writes TIME_STEP under the space rule; a steer replaces the remainder; a correction moves floor time by 2
or 0 frames and hands over what is due, nothing from the moment a restart begins (R206). Due times are compared with floor
time as plain numbers (R166): after 2^48 - 1 the correction reaches only a due time of 0 or 1, and an overdue entry, which
R172 and R174 have run on the next frame, stays in the schedule, which is the model's choice (log 44). -/
def Obligations.TimeSetAndSteered : Prop :=
  (∀ (tag : Nat) (time : BitVec 48) (s : State),
    let c := Instr.setTime tag time
    let p := s.part.took c
    let cu := p.cu
    let room := cu.claimed < 1024 - cu.journal.length
    let entry : JEntry :=
      { seq := cu.seq, time := time.toNat, kind := .timeStep, gap := cu.dropped, oldTime := some p.tu.floorTime }
    s.takes c = true →
    ∃ t, exec c s = .next t ∧ Replied t tag .setTime .ok (.oldTime p.tu.floorTime)
      ∧ Leaves s t { p with
          tu := { p.tu with
            floorTime := time.toNat, synced := true, steerRem := 0, steerCount := 0,
            schedule := p.tu.schedule.map fun (e : SchedEntry) => if e.due ≤ time.toNat then { e with late := true } else e },
          cu := if room then { cu with journal := cu.journal ++ [entry], seq := (cu.seq + 1) % 2 ^ 32, dropped := false }
            else { cu with dropped := true },
          conds := if room then
              vset p.conds 17 ((vget p.conds 17 {}).hear (decide (896 ≤ cu.journal.length + 1)))
            else p.conds })
  ∧ (∀ (tag : Nat) (delta : Int) (s : State), s.takes (.steer tag delta) = true →
    let p := s.part.took (.steer tag delta)
    ∃ t, exec (.steer tag delta) s = .next t ∧ Replied t tag .steer .ok (.replaced p.tu.steerRem)
      ∧ Leaves s t { p with tu := { p.tu with steerRem := max (-16000) (min delta 16000), steerCount := 0 } })
  ∧ ∀ (s : State),
    let p := s.part.took .steeringCorrection
    let u := p.tu
    let falls := u.steerRem ≠ 0 ∧ u.steerCount = 255
    let now := if falls then (if 0 < u.steerRem then (u.floorTime + 2) % 2 ^ 48 else u.floorTime)
      else (u.floorTime + 1) % 2 ^ 48
    let due := if .restartBegin ∈ p.events then [] else u.schedule.takeWhile fun e => decide (e.due ≤ now)
    (u.frameWaits = true →
      ∃ t, exec .steeringCorrection s = .next t
        ∧ Leaves s t { p with
            tu := { u with
              floorTime := now,
              steerRem := if falls then (if 0 < u.steerRem then u.steerRem - 1 else u.steerRem + 1) else u.steerRem,
              steerCount := if falls ∨ u.steerRem = 0 then 0 else u.steerCount + 1,
              schedule := if .restartBegin ∈ p.events then u.schedule
                else u.schedule.dropWhile fun e => decide (e.due ≤ now),
              handed := u.handed ++ due.map fun e => (e, now),
              frameWaits := false },
            events := p.events ++ due.map fun _ => .actionDue })
    ∧ (u.frameWaits = false → ∃ t, exec .steeringCorrection s = .next t ∧ Leaves s t p)

/-- The Action Schedule (R169 to R173, R175, R176): an accepted entry takes the next id and stands behind every entry due at
or before it; CANCEL takes its entry out; READ_SCHEDULE reports a page; and a due action is taken as its command by its
owner, whose result ACTION_DONE carries. That the oldest handed action is taken, whatever blocks own the others, is the
model's choice (log 31): R172 asks for no order between different blocks. -/
def Obligations.ScheduledActionsKeptAndRun : Prop :=
  (∀ (tag : Nat) (due : BitVec 48) (action : Nat) (args : List Nat) (s : State),
    let c := Instr.schedule tag due action args
    let p := s.part.took c
    let u := p.tu
    let late := decide (due.toNat ≤ u.floorTime)
    s.takes c = true →
    (7 ≤ action → Answers c s tag .schedule .badValue .none)
    ∧ (action < 7 → 32 ≤ u.schedule.length → Answers c s tag .schedule .scheduleFull .none)
    ∧ (action < 7 → u.schedule.length < 32 → due.toNat + 16000 < u.floorTime →
        Answers c s tag .schedule .tooLate .none)
    ∧ (action < 7 → u.schedule.length < 32 → u.floorTime ≤ due.toNat + 16000 →
      ∃ t, exec c s = .next t ∧ Replied t tag .schedule .ok (.scheduled u.nextId late)
        ∧ Leaves s t { p with tu := { u with
            schedule := u.schedule.takeWhile (fun e => decide (e.due ≤ due.toNat))
              ++ { id := u.nextId, due := due.toNat, action := { kind := action, args := args }, late := late }
                :: u.schedule.dropWhile (fun e => decide (e.due ≤ due.toNat)),
            nextId := t.part.tu.nextId } }
        ∧ (1 ≤ u.nextId → u.nextId ≤ 65535 → t.part.tu.nextId ≠ u.nextId
            ∧ ∀ e ∈ u.schedule, e.id ≠ t.part.tu.nextId)))
  ∧ (∀ (tag id : Nat) (s : State),
    let c := Instr.cancel tag id
    let p := s.part.took c
    s.takes c = true →
    ((∀ e ∈ p.tu.schedule, e.id ≠ id) → Answers c s tag .cancel .notFound .none)
    ∧ ((∃ e ∈ p.tu.schedule, e.id = id) →
      ∃ t, exec c s = .next t ∧ Replied t tag .cancel .ok .none
        ∧ Leaves s t { p with tu := { p.tu with schedule := p.tu.schedule.filter fun e => e.id ≠ id } }))
  ∧ (∀ (tag start : Nat) (s : State), s.takes (.readSchedule tag start) = true →
    (32 ≤ start → Answers (.readSchedule tag start) s tag .readSchedule .badValue .none)
    ∧ (start < 32 → Answers (.readSchedule tag start) s tag .readSchedule .ok (.schedule
        { floorTime := s.part.tu.floorTime, synced := s.part.tu.synced, remainder := s.part.tu.steerRem,
          count := s.part.tu.schedule.length, entries := (s.part.tu.schedule.drop start).take 12 })))
  ∧ ∀ (e : SchedEntry) (time : Nat) (rest : List (SchedEntry × Nat)) (a : Answered) (s : State),
    let p := s.part.took .actionDue
    let p1 := { p with tu := { p.tu with handed := rest } }
    s.part.tu.handed = (e, time) :: rest →
    ((∃ n pos dev, e.action = { kind := 0, args := [n, pos, dev] } ∧ a = seizeBody n pos dev p1)
      ∨ (∃ n, e.action = { kind := 1, args := [n] } ∧ a = releaseLineBody n p1)
      ∨ (∃ pos k v, e.action = { kind := 2, args := [pos, k, v] } ∧ a = speakerListenBody pos k v p1)
      ∨ (∃ pos k v, e.action = { kind := 3, args := [pos, k, v] } ∧ a = speakerGainBody pos k v p1)
      ∨ (∃ cls v, e.action = { kind := 4, args := [cls, v] } ∧ a = setGuardBody cls v p1)
      ∨ (∃ k mode block, e.action = { kind := 5, args := [k, mode, block] } ∧ a = cueStartBody k mode block p1)
      ∨ ∃ k, e.action = { kind := 6, args := [k] } ∧ a = cueStopBody k p1) →
    ∃ t, exec .actionDue s = .next t ∧ Leaves s t a.part
      ∧ (s.roomy → Told t (.actionDone e.id e.action.kind a.result e.late time))

/-! ### Probes, meters and memory -/

/-- A probe (R59, R185 to R188, R203): an idle line with a wire to test goes to PROBING with a free op slot; TONE_ON gives
way to TONE_OFF; and the end returns the line to IDLE with the verdict of the two means, which OP_DONE carries. -/
def Obligations.ProbeRunsOnIdleLine : Prop :=
  (∀ (tag n window i : Nat) (s : State),
    let c := Instr.probe tag n window
    let p := (s.part.took c).useLine n
    let l := p.line n
    let w := if window = 0 then 1600 else max 800 (min window 16000)
    n < 192 → s.takes c = true →
    (l.state = .idle → l.prov.kind ≠ .hoot → i < 4 → vget p.ops i none = none →
      (∀ j, j < i → (vget p.ops j none).isSome = true) →
      ∃ t, exec c s = .next t ∧ Replied t tag .probe .accepted .none
        ∧ Leaves s t { (p.setLine n { l with state := .probing, probePhase := some .toneOn }).setPort n
              { p.port n with burst := 0, outLead := false, outOfService := false } with
            ops := vset p.ops i (some { tag := tag, op := .probe n, result := none }),
            au := { p.au with probes := p.au.probes ++
              [{ line := n, window := w, phase := .toneOn, done := 0, onSum := 0, offSum := 0 }] } }
        ∧ (s.roomy → Told t (.lineState n .probing .probe l.occupants l.privacy l.holdOwner l.oosCause)))
    ∧ (l.state = .idle → l.prov.kind ≠ .hoot → (∀ j, j < 4 → (vget p.ops j none).isSome = true) →
      ∃ t, exec c s = .next t ∧ Replied t tag .probe .opsFull .none ∧ Leaves s t p)
    ∧ (l.state ≠ .idle ∨ l.prov.kind = .hoot →
      ∃ t, exec c s = .next t ∧ Replied t tag .probe .wrongState .none ∧ Leaves s t p))
  ∧ (∀ (n : Nat) (r : Probe) (s : State),
    let c := Instr.probePhaseChange n
    let p := s.part.took c
    s.part.probeOf n = some r → r.phase = .toneOn → r.done = r.window →
    ∃ t, exec c s = .next t
      ∧ Leaves s t { p.setLine n { p.line n with probePhase := some .toneOff } with
          au := { p.au with probes := p.au.probes.map fun (x : Probe) =>
            if x.line = n then { x with phase := .toneOff, done := 0 } else x } })
  ∧ (∀ (n i dtag : Nat) (r : Probe) (s : State),
    let c := Instr.probeEnd n
    let p := (s.part.took c).useLine n
    let l := p.line n
    let on := r.onSum / r.window
    let off := r.offSum / r.window
    n < 192 → s.part.probeOf n = some r → r.phase = .toneOff → r.done = r.window → l.state = .probing →
    s.part.opsDone = [] → i < 4 → vget s.part.ops i none = some { tag := dtag, op := .probe n, result := none } →
    (∀ j, j < i → ∀ x, vget s.part.ops j none = some x → x.op = .probe n → x.result ≠ none) →
    ∃ t, exec c s = .next t
      ∧ t.part.line n =
          { prov := l.prov, state := .idle, lingering := l.lingering, oosCause := l.oosCause, damage := l.damage }
      ∧ t.part.au = { p.au with probes := p.au.probes.filter fun x => x.line ≠ n }
      ∧ (t.part.port n).outLead = false ∧ (t.part.port n).burst = 0
      ∧ Keeps p t.part n [] ∧ KeepsLists p t.part [] ∧ t.part.cu = p.cu ∧ t.part.events = p.events
      ∧ t.link.still = s.link.still ∧ t.pending = s.pending
      ∧ (s.roomy → vget t.part.ops i none = none
        ∧ Told t (.opDone dtag (.probe n) (if 1036 ≤ on ∧ off ≤ 104 then .pass on off else .fail on off))
        ∧ Told t (.lineState n .idle .probeEnd [] false none l.oosCause)))
  ∧ ∀ (n : Nat) (s : State), s.part.probeOf n = none →
    (∃ t, exec (.probePhaseChange n) s = .next t ∧ Leaves s t (s.part.took (.probePhaseChange n)))
    ∧ ∃ t, exec (.probeEnd n) s = .next t ∧ Leaves s t (s.part.took (.probeEnd n))

/-- Level meters and the Fault Record (R189, R190, R194, R195): an idle meter opens at 0 on its source; one whose count is
full counts no further; a close frees it and reports the mean, UNSETTLED below 1600 frames. An offer enters an empty record,
or a HIGH one a record that holds a LOW fault; a LOW offer is counted against its store and a HIGH one sends FAULT; a
reading reports the record and clears the counts; a clear empties it. -/
def Obligations.MetersAndFaultRecord : Prop :=
  ((∀ (tag m source : Nat) (s : State),
    let c := Instr.meterOpen tag m source
    let p := s.part.took c
    s.takes c = true →
    ((4 ≤ m ∨ 304 ≤ source) → Answers c s tag .meterOpen .badValue .none)
    ∧ (m < 4 → source < 304 → (vget p.au.meters m none).isSome = true → Answers c s tag .meterOpen .busy .none)
    ∧ (m < 4 → source < 304 → vget p.au.meters m none = none →
      ∃ t, exec c s = .next t ∧ Replied t tag .meterOpen .ok .none
        ∧ Leaves s t { p with au := { p.au with
            meters := vset p.au.meters m (some { source := source, count := 0, sum := 0, counting := true }) } }))
  ∧ (∀ (tag m : Nat) (s : State),
    let c := Instr.meterClose tag m
    let p := s.part.took c
    s.takes c = true →
    (4 ≤ m → Answers c s tag .meterClose .badValue .none)
    ∧ (m < 4 → vget p.au.meters m none = none → Answers c s tag .meterClose .wrongState .none)
    ∧ ∀ x, vget p.au.meters m none = some x →
      ∃ t, exec c s = .next t
        ∧ Replied t tag .meterClose (if 1600 ≤ x.count then .ok else .unsettled)
            (.level (if x.count = 0 then 0 else x.sum / x.count) x.count)
        ∧ Leaves s t { p with au := { p.au with meters := vset p.au.meters m none } })
  ∧ ∀ (m : Nat) (s : State),
    let c := Instr.meterCountFull m
    let p := s.part.took c
    (∀ x, vget p.au.meters m none = some x → x.count = 4294967295 →
      ∃ t, exec c s = .next t
        ∧ Leaves s t { p with au := { p.au with meters := vset p.au.meters m (some { x with counting := false }) } })
    ∧ ((∀ x, vget p.au.meters m none = some x → x.count ≠ 4294967295) →
      ∃ t, exec c s = .next t ∧ Leaves s t p))
  ∧ (∀ (o : Offer) (s : State),
    let c := Instr.faultOffer o
    let p := s.part.took c
    let a := p.au
    let kept := a.fault = none ∨ ∃ r, a.fault = some r ∧ r.rank = .low ∧ o.rank = .high
    let new : FaultRec :=
      { rank := o.rank, store := o.store, index := o.index, syndrome := o.syndrome, time := p.tu.floorTime,
        foundBy := o.foundBy }
    ∃ t, exec c s = .next t
      ∧ (kept → t.part.au.fault = some new) ∧ (¬ kept → t.part.au.fault = a.fault)
      ∧ Leaves s t { p with au := { a with
          fault := t.part.au.fault,
          mixCorrected := if o.rank = .low ∧ o.store = .mix then min 65535 (a.mixCorrected + 1) else a.mixCorrected,
          lineCorrected := if o.rank = .low ∧ o.store = .line then min 65535 (a.lineCorrected + 1)
            else a.lineCorrected } }
      ∧ (s.roomy → o.rank = .high → ∃ b, (b = true ↔ kept)
          ∧ Told t (.fault o.store o.index o.syndrome p.tu.floorTime o.foundBy b)))
  ∧ (∀ (tag : Nat) (s : State), s.takes (.readFault tag) = true →
    let p := s.part.took (.readFault tag)
    ∃ t r, exec (.readFault tag) s = .next t ∧ Replied t tag .readFault .ok (.fault r)
      ∧ Leaves s t { p with au := { p.au with mixCorrected := 0, lineCorrected := 0 } }
      ∧ r.fault = p.au.fault ∧ r.mix = p.au.mixCorrected ∧ r.line = p.au.lineCorrected
      ∧ ∀ f, p.au.fault = some f →
          (f.store = .line → r.output = none)
          ∧ (f.store = .mix → (∀ o, r.output = some o → o < 320 ∧ ∃ e ∈ p.mixList o, e.index = f.index)
            ∧ (r.output = none → ∀ o, o < 320 → ∀ e ∈ p.mixList o, e.index ≠ f.index)))
  ∧ ∀ (tag : Nat) (s : State), s.takes (.clearFault tag) = true →
    let p := s.part.took (.clearFault tag)
    ∃ t, exec (.clearFault tag) s = .next t ∧ Replied t tag .clearFault .ok .none
      ∧ Leaves s t { p with au := { p.au with fault := none } }

/-- Checks by the scrubber (R61, R192, R193): a sound word and a poisoned entry are passed over; a single-bit error is
corrected and offered LOW; a double-bit error is offered HIGH and poisons an entry in use, or takes the line out of service
with cause MEMORY and the kind CC keeps apart. -/
def Obligations.ScrubDealsWithDamage : Prop :=
  (∀ (word : Nat) (s : State),
    let c := Instr.scrubMixCheck word
    let p := s.part.took c
    ((∀ d ∈ p.mx.damage, d.index ≠ word) → ∃ t, exec c s = .next t ∧ Leaves s t p)
    ∧ ((∃ o e, o < 320 ∧ e ∈ p.mixList o ∧ e.index = word ∧ e.poisoned = true) →
        ∃ t, exec c s = .next t ∧ Leaves s t p)
    ∧ ∀ d a b, p.mx.damage = a ++ d :: b → (∀ x ∈ a, x.index ≠ word) → d.index = word →
        (∀ o e, e ∈ p.mixList o → e.index = word → e.poisoned = false) →
        (∀ o o' e e', e ∈ p.mixList o → e' ∈ p.mixList o' → e.index = word → e'.index = word → o = o') →
        ∃ t, exec c s = .next t
          ∧ (∀ o, o < 320 → t.part.mixList o = (p.mixList o).map fun e =>
              if e.index = word ∧ d.double = true then { e with poisoned := true } else e)
          ∧ Leaves s t { p with
              mx := { p.mx with lists := t.part.mx.lists, damage := p.mx.damage.filter fun x => x.index ≠ word },
              events := p.events ++ [.faultOffer
                { rank := if d.double then .high else .low, store := .mix, index := word, syndrome := d.syndrome,
                  foundBy := .scrub }] })
  ∧ ∀ (n : Nat) (s : State), n < 192 →
    let c := Instr.scrubLineCheck n
    let p := s.part.took c
    let l := p.line n
    let offer := fun (rank : Rank) (syn : BitVec 8) =>
      Instr.faultOffer { rank := rank, store := .line, index := n, syndrome := syn, foundBy := .scrub }
    (l.damage = none → ∃ t, exec c s = .next t ∧ Leaves s t p)
    ∧ (∀ syn, l.damage = some (.single syn) →
      ∃ t, exec c s = .next t
        ∧ Leaves s t { p.setLine n { l with damage := none } with events := p.events ++ [offer .low syn] })
    ∧ ∀ syn reads, l.damage = some (.double syn reads) →
      (l.state = .unprovisioned →
        ∃ t, exec c s = .next t ∧ Leaves s t { p.setLine n {} with events := p.events ++ [offer .high syn] })
      ∧ (l.state ≠ .unprovisioned →
        (∀ o ∈ l.occupants, ∀ e k, (p.position o.1).sk = some e → e.through = some k → k < 12) →
        ∃ t, exec c s = .next t
          ∧ t.part.line n =
              { prov := { reads with kind := vget p.cc.kinds n .ringdown }, state := .outOfService,
                oosCause := some .memory }
          ∧ (l.state ≠ .outOfService → (t.part.port n).outLead = false
              ∧ ∀ o ∈ l.occupants, o.2 ≠ .sk → n ∉ (t.part.position o.1).linesOf o.2)
          ∧ Keeps p t.part n (l.occupants.map Prod.fst) ∧ t.part.events = p.events ++ [offer .high syn]
          ∧ t.link.still = s.link.still ∧ t.pending = s.pending
          ∧ (s.roomy → (l.state = .outOfService → l.oosCause ≠ some .memory) →
              Told t (.lineState n .outOfService .memory [] false none (some .memory))))

/-! ### Lead events and deadlines -/

/-- The far lead of a RINGDOWN line (R48 to R53, R59): a rise rings an idle line that does not linger, answers a call and
brings back one that clears; a fall ends the lingering, abandons a ring, clears a connection and ends a hold; every other
line and state is left as it is. -/
def Obligations.FarLeadMovesRingdown : Prop :=
  (∀ (n : Nat) (s : State), n < 192 →
    let c := Instr.riseEvent n
    let p := (s.part.took c).useLine n
    let l := p.line n
    let moves := fun (t : State) (next : Line) (cause : LineCause) (outs : List Nat) =>
      exec c s = .next t ∧ t.part.line n = next ∧ (t.part.port n).outLead = leadFor next (t.part.port n).burst
        ∧ Keeps p t.part n [] ∧ KeepsLists p t.part outs ∧ t.part.cu = p.cu ∧ t.part.events = p.events
        ∧ t.link.still = s.link.still ∧ t.pending = s.pending
        ∧ (s.roomy → Told t (.lineState n next.state cause next.occupants next.privacy next.holdOwner next.oosCause))
    (l.prov.kind = .ringdown → (l.state = .idle ∨ l.state = .probing) → l.lingering = false →
      ∃ t, moves t { l with state := .ringingIn, ringTimeout := none, probePhase := none } .farRing
          (ringOuts p l.prov.appear)
        ∧ t.part.au = { p.au with probes := if l.state = .probing then p.au.probes.filter (fun x => x.line ≠ n)
                                            else p.au.probes })
    ∧ (l.prov.kind = .ringdown → l.state = .calling →
      ∃ t, moves t { l with state := .connected } .farAnswer [] ∧ t.part.au = p.au)
    ∧ (l.prov.kind = .ringdown → l.state = .clearing →
      ∃ t, moves t { l with state := .connected } .farReturn [] ∧ t.part.au = p.au)
    ∧ ((l.prov.kind ≠ .ringdown ∨ ((l.state = .idle ∨ l.state = .probing) ∧ l.lingering = true) ∨ l.state = .unprovisioned
        ∨ l.state = .ringingIn ∨ l.state = .connected ∨ l.state = .held ∨ l.state = .opened ∨ l.state = .outOfService) →
      ∃ t, exec c s = .next t ∧ Leaves s t p))
  ∧ ∀ (n : Nat) (s : State), n < 192 →
    let c := Instr.fallEvent n
    let p := (s.part.took c).useLine n
    let l := p.line n
    let rest : Line := { prov := l.prov, state := .idle, oosCause := l.oosCause, damage := l.damage }
    let moves := fun (t : State) (next : Line) (cause : LineCause) (outs : List Nat) =>
      exec c s = .next t ∧ t.part.line n = next ∧ (t.part.port n).outLead = leadFor next (t.part.port n).burst
        ∧ Keeps p t.part n [] ∧ KeepsLists p t.part outs ∧ t.part.cu = p.cu ∧ t.part.events = p.events
        ∧ t.part.au = p.au ∧ t.link.still = s.link.still ∧ t.pending = s.pending
        ∧ (s.roomy → Told t (.lineState n next.state cause next.occupants next.privacy next.holdOwner next.oosCause))
    (l.prov.kind = .ringdown → (l.state = .idle ∨ l.state = .probing) →
      ∃ t, exec c s = .next t ∧ Leaves s t (p.setLine n { l with lingering := false }))
    ∧ (l.prov.kind = .ringdown → l.state = .ringingIn → ∃ t, moves t rest .abandoned (ringOuts p l.prov.appear))
    ∧ (l.prov.kind = .ringdown → l.state = .connected → ∃ t, moves t { l with state := .clearing } .farClear [])
    ∧ (l.prov.kind = .ringdown → l.state = .held →
      ∃ t, moves t rest .farClear (sendOutput n :: ownerOuts p l.holdOwner))
    ∧ ((l.prov.kind ≠ .ringdown ∨ l.state = .unprovisioned ∨ l.state = .calling ∨ l.state = .clearing
        ∨ l.state = .opened ∨ l.state = .outOfService) → ∃ t, exec c s = .next t ∧ Leaves s t p)

/-- Bursts and deadlines (R54 to R57, R59): a valid burst is told while the line can hear it, rings an idle MANUAL line with a
timeout of 96000 frames and restarts the timeout of a ringing one; a timeout that has run out ends the ring, and a recall that
has run out marks the hold and tells its owner. -/
def Obligations.BurstsAndDeadlines : Prop :=
  (∀ (n len : Nat) (s : State), n < 192 →
    let c := Instr.burstEvent n len
    let p := (s.part.took c).useLine n
    let l := p.line n
    let next : Line := { l with state := .ringingIn, ringTimeout := some 96000, probePhase := none }
    (l.prov.kind = .manual → (l.state = .idle ∨ l.state = .probing) →
      ∃ t, exec c s = .next t ∧ t.part.line n = next
        ∧ t.part.au = { p.au with probes := if l.state = .probing then p.au.probes.filter (fun x => x.line ≠ n)
                                            else p.au.probes }
        ∧ Keeps p t.part n [] ∧ KeepsLists p t.part (ringOuts p l.prov.appear) ∧ t.part.cu = p.cu
        ∧ t.part.events = p.events ∧ t.link.still = s.link.still ∧ t.pending = s.pending
        ∧ (s.roomy → Told t (.ringBurst n len)
            ∧ Told t (.lineState n .ringingIn .burst l.occupants l.privacy l.holdOwner l.oosCause)))
    ∧ (l.prov.kind = .manual → l.state = .ringingIn →
      ∃ t, exec c s = .next t ∧ Leaves s t (p.setLine n { l with ringTimeout := some 96000 })
        ∧ (s.roomy → Told t (.ringBurst n len)))
    ∧ (l.prov.kind = .manual → (l.state = .connected ∨ l.state = .held) →
      ∃ t, exec c s = .next t ∧ Leaves s t p ∧ (s.roomy → Told t (.ringBurst n len)))
    ∧ ((l.prov.kind ≠ .manual ∨ l.state = .unprovisioned ∨ l.state = .calling ∨ l.state = .clearing ∨ l.state = .opened
        ∨ l.state = .outOfService) → ∃ t, exec c s = .next t ∧ Leaves s t p))
  ∧ (∀ (n : Nat) (s : State), n < 192 →
    let c := Instr.ringTimeout n
    let p := (s.part.took c).useLine n
    let l := p.line n
    (l.state = .ringingIn → l.ringTimeout = some 0 →
      ∃ t, exec c s = .next t
        ∧ t.part.line n = { prov := l.prov, state := .idle, oosCause := l.oosCause, damage := l.damage }
        ∧ Keeps p t.part n [] ∧ KeepsLists p t.part (ringOuts p l.prov.appear) ∧ t.part.cu = p.cu ∧ t.part.au = p.au
        ∧ t.part.events = p.events ∧ t.link.still = s.link.still ∧ t.pending = s.pending
        ∧ (s.roomy → Told t (.lineState n .idle .ringTimeout [] false none l.oosCause)))
    ∧ ((l.state ≠ .ringingIn ∨ l.ringTimeout ≠ some 0) → ∃ t, exec c s = .next t ∧ Leaves s t p))
  ∧ ∀ (n : Nat) (s : State), n < 192 →
    let c := Instr.recallDeadlineExpiry n
    let p := (s.part.took c).useLine n
    let l := p.line n
    (l.state = .held → l.recallTime = some 0 →
      ∃ t, exec c s = .next t ∧ t.part.line n = { l with recallTime := none, recallExpired := some true }
        ∧ Keeps p t.part n [] ∧ KeepsLists p t.part (ownerOuts p l.holdOwner) ∧ t.part.ports = p.ports
        ∧ t.part.cu = p.cu ∧ t.part.au = p.au ∧ t.part.events = p.events ∧ t.link.still = s.link.still
        ∧ t.pending = s.pending
        ∧ ∀ pos, s.roomy → l.holdOwner = some pos → Told t (.holdRecall n pos))
    ∧ ((l.state ≠ .held ∨ l.recallTime ≠ some 0) → ∃ t, exec c s = .next t ∧ Leaves s t p)

/-- A debounced change and the end of an outgoing burst (R26, R29, R32, R33, R35, R37, R39): the value and the count are
written; a provisioned port in service tells LEAD if the edge report selects it and gives CC its kind's event, a MANUAL
port's burst only if it lasted 3200 to 32000 frames; the lead falls with the burst. -/
def Obligations.DebouncedChangeProduced : Prop :=
  (∀ (n : Nat) (v : Bool) (s : State), n < 192 →
    let c := Instr.debouncedChange n v
    let p := s.part.took c
    let q := p.port n
    let q1 : Port := { q with debounced := v, stable := 0 }
    (q.debounced = v → ∃ t, exec c s = .next t ∧ Leaves s t p)
    ∧ (q.debounced ≠ v → (q.provisioned = false ∨ q.outOfService = true) →
        ∃ t, exec c s = .next t ∧ Leaves s t (p.setPort n q1))
    ∧ (q.debounced ≠ v → q.provisioned = true → q.outOfService = false →
      ∃ t, exec c s = .next t
        ∧ (q.kind = .ringdown → Leaves s t { p.setPort n q1 with
            events := p.events ++ [if v then .riseEvent n else .fallEvent n] })
        ∧ (q.kind = .manual → v = true → Leaves s t (p.setPort n { q1 with inTimer := some 0 }))
        ∧ (q.kind = .manual → v = false → ∀ len, q.inTimer = some len → Leaves s t
            { p.setPort n { q1 with inTimer := none } with
              events := p.events ++ if 3200 ≤ len ∧ len ≤ 32000 then [.burstEvent n len] else [] })
        ∧ (q.kind = .manual → v = false → q.inTimer = none → Leaves s t (p.setPort n { q1 with inTimer := none }))
        ∧ (q.kind = .hoot → Leaves s t (p.setPort n q1))
        ∧ (s.roomy → (q.edge = .both ∨ (q.edge = .rise ∧ v = true) ∨ (q.edge = .fall ∧ v = false)) →
            Told t (.lead n v))))
  ∧ ∀ (n : Nat) (s : State),
    let c := Instr.outgoingBurstEnd n
    let p := s.part.took c
    let q := p.port n
    (q.kind = .manual → q.burst = 0 → ∃ t, exec c s = .next t ∧ Leaves s t (p.setPort n { q with outLead := false }))
    ∧ ((q.kind ≠ .manual ∨ q.burst ≠ 0) → ∃ t, exec c s = .next t ∧ Leaves s t p)

/-! ### Highways -/

/-- Arrivals, windows, gaps and RRDY (R156, R178 to R184): an arrival, before which AU finishes the frame for its highway,
its own window end and gap loss that wait (log 20), is counted and, on a highway in service, written to the buffer, a full
one dropping its oldest frame as a slip; a window out of range makes an OK highway SLIPPING, one in range makes a SLIPPING
or LOST one OK, and with a gap count of 8 it then loses it again (log 20); a gap loses it; and a reported RRDY level reaches
CU, the journal and the RECORDER_LOST cause. -/
def Obligations.HighwaysAndRecorderFollow : Prop :=
  (∀ (h : Nat) (f : LineFrame) (s : State), h < 4 →
    let c := Instr.highwayFrameArrival h f
    let p := (s.part.took c).finishHighway h
    let w := p.highway h
    let w1 : Highway := { w with gap := 0, arrivals := min 65535 (w.arrivals + 1) }
    ∃ t, exec c s = .next t
      ∧ (w.state = .lost → Leaves s t (p.setHighway h w1))
      ∧ (w.state ≠ .lost → w.buffer.length < 2 →
          Leaves s t (p.setHighway h { w1 with buffer := w.buffer ++ [f], slipsCounted := true }))
      ∧ (w.state ≠ .lost → 2 ≤ w.buffer.length →
          Leaves s t (p.setHighway h { w1 with
            buffer := w.buffer.drop 1 ++ [f], slipsCounted := true,
            slips := if w.slipsCounted then min 65535 (w.slips + 1) else w.slips }))
      ∧ ((∀ e ∈ s.part.events, ownHighwayEvent h e = false) → p = s.part.took c)
      ∧ (∀ n, s.part.events = [.highwayWindowEnd h n] → 15998 ≤ n → n ≤ 16002 → (s.part.highway h).state = .lost →
          (s.part.highway h).gap = 8 →
          (t.part.highway h).state = .lost ∧ (t.part.highway h).gap = 0 ∧ (t.part.highway h).arrivals = 1
            ∧ (t.part.highway h).buffer = []))
  ∧ (∀ (h arrivals : Nat) (s : State), h < 4 →
    let c := Instr.highwayWindowEnd h arrivals
    let p := s.part.took c
    let w := p.highway h
    let good := 15998 ≤ arrivals ∧ arrivals ≤ 16002
    let causes := fun (slip lost : Bool) =>
      vset (vset p.conds (4 + h) ((vget p.conds (4 + h) {}).hear slip)) h ((vget p.conds h {}).hear lost)
    ∃ t, exec c s = .next t
      ∧ (w.state = .ok → ¬ good →
          Leaves s t { p.setHighway h { w with state := .slipping } with conds := causes true false })
      ∧ (w.state = .slipping → good →
          Leaves s t { p.setHighway h { w with state := .ok } with conds := causes false false })
      ∧ (w.state = .lost → good → Leaves s t
          { p.setHighway h { w with buffer := [], current := silence, slipsCounted := false, state := .ok } with
            conds := causes false false,
            events := p.events ++ [.lsuHighwayReturn h, .lineHighwayRestored h]
              ++ if w.gap = 8 then [.highwayGapLoss h] else [] })
      ∧ ((w.state = .ok ∧ good) ∨ (w.state ≠ .ok ∧ ¬ good) → Leaves s t p))
  ∧ (∀ (h : Nat) (s : State), h < 4 →
    let c := Instr.highwayGapLoss h
    let p := s.part.took c
    let w := p.highway h
    ∃ t, exec c s = .next t
      ∧ (w.state = .lost → Leaves s t p)
      ∧ (w.state ≠ .lost → Leaves s t
          { p.setHighway h { w with
              buffer := [], current := silence, slipsCounted := false, state := .lost, window := 0, arrivals := 0 } with
            conds := vset (vset p.conds (4 + h) ((vget p.conds (4 + h) {}).hear false)) h ((vget p.conds h {}).hear true),
            events := p.events ++ [.lsuHighwayLoss h, .lineHighwayLost h] }))
  ∧ ∀ (ready : Bool) (s : State),
    let c := Instr.rrdyChange ready
    let p := s.part.took c
    let cu := p.cu
    let room := cu.claimed < 1024 - cu.journal.length
    let entry : JEntry :=
      { seq := cu.seq, time := p.tu.floorTime, kind := if ready then .recorderBack else .recorderLost, gap := cu.dropped }
    let high := if room then vset p.conds 17 ((vget p.conds 17 {}).hear (decide (896 ≤ cu.journal.length + 1))) else p.conds
    ∃ t, exec c s = .next t
      ∧ (cu.recorderReady = ready → Leaves s t { p with au := { p.au with rrdy := ready } })
      ∧ (cu.recorderReady ≠ ready → Leaves s t { p with
          au := { p.au with rrdy := ready },
          cu := if room then { cu with recorderReady := ready, journal := cu.journal ++ [entry], seq := (cu.seq + 1) % 2 ^ 32,
                                       dropped := false }
            else { cu with recorderReady := ready, dropped := true },
          conds := vset high 8 ((vget p.conds 8 {}).hear (!ready)) })

/-- What a highway's loss and return do to its lines (R38, R60, R61): LSU stops sampling its ports and takes them up from
scratch; a provisioned line in service goes OUT_OF_SERVICE with cause HIGHWAY, its occupants leaving, each undamaged line's
outputs being derived; that all lines of the highway go in one edit, where R60 and R181 speak of each line's entry and R93
of one edit for an event, is the model's reading (log 29); and one out of service for its highway comes back to IDLE or
OPEN; the lines of the other highways are left as they are. -/
def Obligations.HighwayTakesItsLines : Prop :=
  (∀ (h : Nat) (s : State),
    let p := s.part.took (.lsuHighwayLoss h)
    ∃ t, exec (.lsuHighwayLoss h) s = .next t ∧ Leaves s t { p with ports := t.part.ports }
      ∧ ∀ n, n < 192 → t.part.port n =
          if n / 48 = h then { p.port n with sampling := false, inTimer := none } else p.port n)
  ∧ (∀ (h : Nat) (s : State),
    let p := s.part.took (.lsuHighwayReturn h)
    ∃ t, exec (.lsuHighwayReturn h) s = .next t ∧ Leaves s t { p with ports := t.part.ports }
      ∧ ∀ n, n < 192 → t.part.port n =
          if n / 48 = h then
            { p.port n with debounced := false, stable := 0, inTimer := none, sensed := false, sampling := true }
          else p.port n)
  ∧ (∀ (h : Nat) (s : State), h < 4 → (∀ n, n / 48 = h → (s.part.line n).damage = none) →
    let p := s.part.took (.lineHighwayLost h)
    ∃ t, exec (.lineHighwayLost h) s = .next t
      ∧ (∀ n, n / 48 = h →
          ((p.line n).state = .unprovisioned ∨ (p.line n).state = .outOfService → t.part.line n = p.line n)
          ∧ ((p.line n).state ≠ .unprovisioned → (p.line n).state ≠ .outOfService →
            t.part.line n = { prov := (p.line n).prov, state := .outOfService, oosCause := some .highway }
            ∧ (t.part.port n).outLead = false ∧ (t.part.port n).outOfService = true
            ∧ ∀ o ∈ (p.line n).occupants, o.2 ≠ .sk → n ∉ (t.part.position o.1).linesOf o.2))
      ∧ (∀ n, n / 48 ≠ h → t.part.line n = p.line n ∧ t.part.port n = p.port n)
      ∧ (let lost := (highwayLines h).filter fun n => (p.line n).inService
        t.part.mx.lists = (Part.edit { p with cc := t.part.cc } (lost.flatMap (lostOuts p))).mx.lists)
      ∧ t.part.cc.groups = p.cc.groups ∧ t.part.cc.guards = p.cc.guards ∧ t.part.cue = p.cue ∧ t.part.tu = p.tu
      ∧ t.part.events = p.events ∧ t.link.still = s.link.still ∧ t.pending = s.pending)
  ∧ ∀ (h : Nat) (s : State), h < 4 → (∀ n, n / 48 = h → (s.part.line n).damage = none) →
    let p := s.part.took (.lineHighwayRestored h)
    ∃ t, exec (.lineHighwayRestored h) s = .next t
      ∧ (∀ n, n / 48 = h →
          ((p.line n).state = .outOfService → (p.line n).oosCause = some .highway →
            t.part.line n =
              { prov := (p.line n).prov, state := if (p.line n).prov.kind = .hoot then .opened else .idle }
            ∧ (t.part.port n).outLead = false ∧ (t.part.port n).outOfService = false)
          ∧ ((p.line n).state ≠ .outOfService ∨ (p.line n).oosCause ≠ some .highway →
            t.part.line n = p.line n ∧ t.part.port n = p.port n))
      ∧ (∀ n, n / 48 ≠ h → t.part.line n = p.line n ∧ t.part.port n = p.port n)
      ∧ Leaves s t { p with cc := { p.cc with lines := t.part.cc.lines }, ports := t.part.ports }

/-! ### The reference frame

Each statement is about a frame before which everything handed over has been taken (log 11); where a digest could
read a damaged record on the same frame, none runs. -/

/-- A frame's time and counts (R20, R42, R54, R56, R84, R85, R166, R168, R172, R184, R191): floor time advances by 1 and
what is due is handed over, or a correction waits; deadlines and idle counts move and raise their events as they run out;
RRDY is sampled, the first sample after power-on becoming the reported level and CU's at once (R164); the digest reads a
record; and the scrubber asks for its next check. After floor time 2^48 - 1 the next one, 0, is compared with the due times
(R166), and an overdue entry, which R172 has run on the next frame, stays in the schedule, which is the model's choice (log
44). A frame of a start may be the one that queues READY, which another statement covers. -/
def Obligations.FrameAdvancesTimeAndCounts : Prop :=
  ∀ (i : FrameInput) (s : State), s.part.events = [] → i.upsets = [] → (∀ n, (s.part.line n).damage = none) →
    let p := s.part
    let u := p.tu
    let now := (u.floorTime + 1) % 2 ^ 48
    let due := u.schedule.takeWhile fun e => decide (e.due ≤ now)
    ∃ t, exec (.referenceFrame i) s = .next t ∧ t.pending = s.pending
      ∧ ((∀ n, s.link.phase ≠ .starting n) → t.link.still = s.link.still)
      ∧ (u.steerRem = 0 ∨ u.steerCount ≠ 255 →
          t.part.tu = { u with
            floorTime := now, steerCount := if u.steerRem = 0 then 0 else u.steerCount + 1,
            schedule := u.schedule.dropWhile fun e => decide (e.due ≤ now),
            handed := u.handed ++ due.map fun e => (e, now) }
          ∧ (due ≠ [] → Instr.actionDue ∈ t.part.events))
      ∧ (u.steerRem ≠ 0 → u.steerCount = 255 →
          t.part.tu = { u with frameWaits := true } ∧ Instr.steeringCorrection ∈ t.part.events)
      ∧ (∀ n, n < 192 →
          t.part.line n = { p.line n with
            recallTime := (p.line n).recallTime.map (· - 1), ringTimeout := (p.line n).ringTimeout.map (· - 1),
            damage := (t.part.line n).damage }
          ∧ (i.late = [] → (t.part.line n).damage = none)
          ∧ ((p.line n).recallTime = some 1 → Instr.recallDeadlineExpiry n ∈ t.part.events)
          ∧ ((p.line n).ringTimeout = some 1 → Instr.ringTimeout n ∈ t.part.events))
      ∧ (∀ g, g < 32 →
          let r := p.group g
          let active := fun (x : Talker) => vget p.cc.activity (micSource x.position .sk) false
          (r.revoke = 0 → t.part.group g = r)
          ∧ (r.revoke ≠ 0 → r.waiters = [] →
              t.part.group g = { r with talkers := r.talkers.map fun (x : Talker) => { x with idle := 0 } })
          ∧ (r.revoke ≠ 0 → r.waiters ≠ [] →
              t.part.group g = { r with talkers := r.talkers.map fun (x : Talker) =>
                { x with idle := if active x then 0 else min (16000 * r.revoke) (x.idle + 1) } }
              ∧ ∀ x ∈ r.talkers, active x = false → x.idle + 1 = 16000 * r.revoke →
                  Instr.idleRevoke g x.position ∈ t.part.events))
      ∧ (p.au.rrdyFresh = true →
          t.part.au.rrdy = i.rrdy ∧ t.part.au.rrdyHold = 0 ∧ t.part.au.rrdyFresh = false
            ∧ t.part.cu = { p.cu with recorderReady := i.rrdy })
      ∧ (p.au.rrdyFresh = false →
          (i.rrdy = p.au.rrdy → t.part.au.rrdyHold = 0)
          ∧ (i.rrdy ≠ p.au.rrdy → p.au.rrdyHold < 31 → t.part.au.rrdyHold = p.au.rrdyHold + 1)
          ∧ (i.rrdy ≠ p.au.rrdy → 31 ≤ p.au.rrdyHold →
              t.part.au.rrdyHold = 0 ∧ Instr.rrdyChange i.rrdy ∈ t.part.events)
          ∧ t.part.au.rrdy = p.au.rrdy ∧ t.part.au.rrdyFresh = false ∧ t.part.cu = p.cu
          ∧ ((∀ n, s.link.phase ≠ .starting n) → t.part.conds = p.conds))
      ∧ (p.cc.digest = none → t.part.cc.digest = none)
      ∧ (∀ d, p.cc.digest = some d → d.next < 535 → t.part.cc.digest
            = some { next := d.next + 1, crc := crc32Feed d.crc (p.digestRecord d.next).2 })
      ∧ (∀ d, p.cc.digest = some d → d.next = 535 → Instr.digestFinish ∈ t.part.events)
      ∧ t.part.au.scrub = (p.au.scrub + 1) % 3264
      ∧ (if p.au.scrub < 3072 then Instr.scrubMixCheck p.au.scrub else Instr.scrubLineCheck (p.au.scrub - 3072))
          ∈ t.part.events
      ∧ t.part.cc.guards = p.cc.guards ∧ t.part.cc.kinds = p.cc.kinds
      ∧ t.part.cc.positions = p.cc.positions ∧ t.part.cc.slots = p.cc.slots ∧ t.part.cc.routes = p.cc.routes
      ∧ t.part.cc.activity = p.cc.activity

/-- A frame at LSU, CUE and AU's highways (R24 to R26, R32, R34, R35, R130, R131, R178 to R180, R183): each port sends its
lead, debounces the raw bit of its timeslot and runs its timers; each player offers its sample and advances; and each
highway takes its next frame, or repeats the last as a slip, and counts its gap and window. -/
def Obligations.FrameMovesPortsPlayersHighways : Prop :=
  ∀ (i : FrameInput) (s : State), s.part.events = [] → s.part.cc.digest = none →
    let p := s.part
    ∃ t, exec (.referenceFrame i) s = .next t
      ∧ (∀ n, n < 192 →
          let q := p.port n
          let raw := vget (t.part.highway (n / 48)).current.leads (n % 48) false
          let b := raw != (q.sense == .inverted)
          let held := q.sampling = true ∧ b ≠ q.debounced
          let bursting := q.kind = .manual ∧ q.outLead = true ∧ 0 < q.burst
          t.part.port n = { q with
            sentBit := q.outLead != (q.sense == .inverted),
            burst := if bursting then q.burst - 1 else q.burst,
            inTimer := q.inTimer.map fun k => min 32001 (k + 1),
            sensed := if q.sampling then b else q.sensed,
            stable := if q.sampling = false then q.stable
              else if held ∧ q.stable + 1 < 16 * q.debounce then q.stable + 1 else 0 }
          ∧ (held → 16 * q.debounce ≤ q.stable + 1 → Instr.debouncedChange n b ∈ t.part.events)
          ∧ (bursting → q.burst = 1 → Instr.outgoingBurstEnd n ∈ t.part.events))
      ∧ (∀ k, k < 8 →
          let q := p.player k
          t.part.player k = { q with
            offered := if q.playing ∧ ¬ q.underrun then vget (vget q.ring q.block (Vector.replicate 32 0)) q.sample 0 else 0,
            sample := if q.playing ∧ q.sample ≠ 31 then q.sample + 1 else q.sample }
          ∧ (q.playing = true → q.sample = 31 → Instr.cueBlockBoundary k ∈ t.part.events))
      ∧ ∀ h, h < 4 →
          let w := p.highway h
          let w1 : Highway :=
            if w.state = .lost then { w with current := silence }
            else match w.buffer with
              | f :: rest => { w with current := f, buffer := rest }
              | [] => { w with slips := if w.slipsCounted then min 65535 (w.slips + 1) else w.slips }
          let again := 16000 ≤ w.window + 1 ∨ (w.state = .lost ∧ 8 ≤ w.gap + 1)
          t.part.highway h = { w1 with
            gap := min 8 (w.gap + 1), window := if again then 0 else w.window + 1,
            arrivals := if again then 0 else w.arrivals }
          ∧ (16000 ≤ w.window + 1 → Instr.highwayWindowEnd h w.arrivals ∈ t.part.events)
          ∧ (w.state ≠ .lost → 8 ≤ w.gap + 1 → Instr.highwayGapLoss h ∈ t.part.events)

/-- A frame's stages 2 to 5 at MX (R84, R112, R114 to R119, R123 to R126, R192): detectors follow the sources, groups show
their talkers, a position ducks while it is busy or hears a priority source, every unpoisoned entry is checked and its
coefficient moves at most 64 toward the target its code, trim and duck call for, and every talker's toward the group's. An
entry whose word has a double-bit error is poisoned on this frame and keeps its coefficients, one with a single-bit error is
used as if it had none, and either is offered to AU with found-by USE; a damaged free word or poisoned entry is not read.
Damage that strikes after the frame's work is found by none of this and stands for the scrubber (R191). The activity kept,
and the below count waiting at 3200, on the frame that ends a hold are the model's reading (log 9). -/
def Obligations.FrameRampsCoefficients : Prop :=
  ∀ (i : FrameInput) (s : State), s.part.events = [] → s.part.cc.digest = none → s.part.mx.law →
    (∀ g, g < 32 → ∀ b ∈ s.part.busTalkers g, b.position < 24) →
    let m := s.part.mx
    let struck := (i.upsets.foldl Part.strike s.part).mx.damage
    let found := fun (w : Nat) => struck.find? fun x => x.index == w
    let toward := fun (goal now : Nat) =>
      if now < goal then min goal (now + 64) else if goal + 64 < now then now - 64 else goal
    ∃ t, exec (.referenceFrame i) s = .next t
      ∧ (∀ src, src < 264 →
          let d := vget m.detectors src {}
          let x := min (({ part := t.part, mics := i.mics } : Sources).value src).natAbs 32767
          let env := if d.envelope < x then d.envelope + (x - d.envelope) / 8
            else if d.envelope - x < 1024 then d.envelope - min 1 (d.envelope - x)
            else d.envelope - (d.envelope - x) / 1024
          (vget t.part.mx.detectors src {}).envelope = env
          ∧ (328 ≤ env → (vget t.part.mx.detectors src {}).active = true ∧ (vget t.part.mx.detectors src {}).below = 0
              ∧ (d.active = false → Instr.activityEvent src true ∈ t.part.events))
          ∧ (env < 328 → (vget t.part.mx.detectors src {}).active = d.active
              ∧ (vget t.part.mx.detectors src {}).below = (if d.active then min 3200 (d.below + 1) else d.below)
              ∧ (d.active = true → d.below = 3199 → Instr.detectorHoldExpiry src ∈ t.part.events)))
      ∧ (∀ g, g < 32 → vget t.part.mx.groupActive g false =
          (t.part.busTalkers g).any fun x => t.part.mx.shows (micSource x.position .sk))
      ∧ (∀ k, k < 24 → t.part.mixPos k = { s.part.mixPos k with
          ducking := (s.part.mixPos k).busy || (s.part.mixPos k).priority.any fun src => t.part.mx.shows src })
      ∧ (∀ o, o < 320 →
          let q := t.part.mixPos (o / 4)
          let trim := if 96 ≤ o then 0 else if o % 4 = 0 then q.trimEA else if o % 4 = 1 then q.trimEB
            else if o % 4 = 2 then q.trimSL else q.trimSR
          let goal := fun (e : Entry) =>
            let duck := if o < 96 ∧ e.duckable = true ∧ q.ducking = true then q.duck else 0
            if e.code = 0 then 0 else coefOf (max 1 (min 76 ((e.code : Int) + trim - (duck : Int)))).toNat
          t.part.mixList o = (s.part.mixList o).map fun e =>
            if e.poisoned then e
            else if (found e.index).any MixDamage.double then { e with poisoned := true }
            else { e with target := goal e, applied := toward (goal e) e.applied })
      ∧ (∀ o e x, o < 320 → e ∈ s.part.mixList o → e.poisoned = false → found e.index = some x →
          Instr.faultOffer
            { rank := if x.double then .high else .low, store := .mix, index := e.index, syndrome := x.syndrome,
              foundBy := .use } ∈ t.part.events)
      ∧ (∀ x, (∀ d syn, Upset.mix x.index d syn ∉ i.late) →
          (x ∈ t.part.mx.damage ↔ x ∈ struck ∧ ∀ o e, o < 320 → e ∈ s.part.mixList o → e.index = x.index →
            e.poisoned = true))
      ∧ (∀ before k d syn, i.late = before ++ [.mix k d syn] → k < 3072 →
          ({ index := k, double := d, syndrome := syn } : MixDamage) ∈ t.part.mx.damage)
      ∧ (∀ g, g < 32 → t.part.busTalkers g = (s.part.busTalkers g).map fun x =>
          { x with coef := toward (coefOf (s.part.group g).talkCode) x.coef })
      ∧ t.part.mx.omitted = m.omitted ∧ t.part.mx.placed = m.placed

/-- A frame's sums at MX and its measures at AU (R109, R113, R119 to R122, R186, R187, R189): each output is the rounded sum
of its unpoisoned entries' sources by their applied coefficients, limited to 16 bits, a saturation setting the clip flag;
the send of a probed line carries the tone; and probes and meters add the magnitudes they measure. -/
def Obligations.FrameSumsOutputs : Prop :=
  ∀ (i : FrameInput) (s : State), s.part.events = [] → s.part.cc.digest = none →
    ∃ t, exec (.referenceFrame i) s = .next t ∧
      let x : Sources := { part := t.part, mics := i.mics }
      (∀ o, o < 320 → (∀ r ∈ s.part.au.probes, o ≠ 96 + r.line ∨ 288 ≤ o) →
          let wide := (((t.part.mixList o).map fun e =>
            if e.poisoned then 0 else x.heard o e.source * (e.applied : Int)).sum + 2048) / 4096
          vget t.part.mx.outputs o 0 = BitVec.ofInt 16 (max (-32768) (min wide 32767))
          ∧ vget t.part.mx.clip o false = (vget s.part.mx.clip o false || decide (wide < -32768 ∨ 32767 < wide)))
      ∧ (∀ r, s.part.probeOf r.line = some r → r.line < 192 →
          vget t.part.mx.outputs (96 + r.line) 0
              = BitVec.ofInt 16 (if r.phase = .toneOn then toneTable.getD (r.done % 16) 0 else 0)
          ∧ vget t.part.mx.clip (96 + r.line) false = vget s.part.mx.clip (96 + r.line) false)
      ∧ (∀ g pos, g < 32 →
          let terms := fun (ts : List BusTalker) =>
            (ts.map fun b => x.value (micSource b.position .sk) * (b.coef : Int)).sum
          let ts := t.part.busTalkers g
          let bus := (terms ts - terms (ts.filter fun b => pos == some b.position) + 2048) / 4096
          x.bus g pos = max (-131072) (min bus 131071))
      ∧ t.part.au.probes = s.part.au.probes.map (fun r =>
          if r.phase = .toneOn then
            { r with done := r.done + 1, onSum := r.onSum + (lineReceive t.part r.line).natAbs }
          else { r with done := r.done + 1, offSum := r.offSum + (lineReceive t.part r.line).natAbs })
      ∧ ∀ k, k < 4 → ∀ y, vget s.part.au.meters k none = some y →
          (y.counting = true → y.count < 4294967295 →
            vget t.part.au.meters k none = some { y with
              count := y.count + 1, sum := y.sum + (x.metered y.source).natAbs }
            ∧ (y.count + 1 = 4294967295 → Instr.meterCountFull k ∈ t.part.events))
          ∧ ((y.counting = false ∨ y.count = 4294967295) → vget t.part.au.meters k none = some y)
end

