-- ==== Sys2Proof/Laws/State.lean ====
section
/-! SUPPORT. What each update of the state leaves as it was, field by field, and what the tables hold after a write. -/

namespace Sys2Proof.Machine

open Sys2Proof

/-! ### Tables -/

section Tables

variable {α : Type} {n : Nat}

theorem vget_of_lt (v : Vector α n) {i : Nat} (h : i < n) (d : α) : vget v i d = v[i] := by
  simp [vget, h]

theorem vget_of_ge (v : Vector α n) {i : Nat} (h : n ≤ i) (d : α) : vget v i d = d := by
  simp [vget, Vector.getElem?_eq_none h]

theorem vget_vset_same (v : Vector α n) {i : Nat} (h : i < n) (x d : α) : vget (vset v i x) i d = x := by
  simp [vget, vset, h]

theorem vget_vset_ne (v : Vector α n) {i j : Nat} (h : i ≠ j) (x d : α) : vget (vset v i x) j d = vget v j d := by
  simp [vget, vset, Vector.getElem?_setIfInBounds_ne h]

theorem vset_of_ge (v : Vector α n) {i : Nat} (h : n ≤ i) (x : α) : vset v i x = v := by
  apply Vector.ext
  intro k hk
  have : i ≠ k := by omega
  simp [vset, this]

theorem vset_vget_self (v : Vector α n) (i : Nat) (d : α) : vset v i (vget v i d) = v := by
  apply Vector.ext
  intro k hk
  by_cases h : i = k
  · subst h; simp [vset, vget_of_lt v hk]
  · simp [vset, h]

theorem vget_map {β : Type} (v : Vector α n) (f : α → β) (i : Nat) (d : α) :
    vget (v.map f) i (f d) = f (vget v i d) := by
  by_cases h : i < n
  · simp [vget_of_lt _ h]
  · simp [vget_of_ge _ (Nat.le_of_not_lt h)]

theorem vget_mapIdx {β : Type} (v : Vector α n) (f : Nat → α → β) {i : Nat} (h : i < n) (d : α) (e : β) :
    vget (v.mapIdx f) i e = f i (vget v i d) := by
  simp [vget_of_lt _ h]

theorem vget_replicate (x : α) (i : Nat) : vget (Vector.replicate n x) i x = x := by
  by_cases h : i < n
  · simp [vget_of_lt _ h]
  · simp [vget_of_ge _ (Nat.le_of_not_lt h)]

end Tables

/-! ### The setters -/

section Setters

variable (p : Part)

@[simp] theorem setPort_cc (k : Nat) (x : Port) : (p.setPort k x).cc = p.cc := rfl
@[simp] theorem setPort_mx (k : Nat) (x : Port) : (p.setPort k x).mx = p.mx := rfl
@[simp] theorem setPort_cue (k : Nat) (x : Port) : (p.setPort k x).cue = p.cue := rfl
@[simp] theorem setPort_cu (k : Nat) (x : Port) : (p.setPort k x).cu = p.cu := rfl
@[simp] theorem setPort_tu (k : Nat) (x : Port) : (p.setPort k x).tu = p.tu := rfl
@[simp] theorem setPort_au (k : Nat) (x : Port) : (p.setPort k x).au = p.au := rfl
@[simp] theorem setPort_ops (k : Nat) (x : Port) : (p.setPort k x).ops = p.ops := rfl
@[simp] theorem setPort_opsDone (k : Nat) (x : Port) : (p.setPort k x).opsDone = p.opsDone := rfl
@[simp] theorem setPort_conds (k : Nat) (x : Port) : (p.setPort k x).conds = p.conds := rfl
@[simp] theorem setPort_events (k : Nat) (x : Port) : (p.setPort k x).events = p.events := rfl
@[simp] theorem setPort_early (k : Nat) (x : Port) : (p.setPort k x).early = p.early := rfl
@[simp] theorem setPort_outbox (k : Nat) (x : Port) : (p.setPort k x).outbox = p.outbox := rfl

@[simp] theorem setLine_ports (k : Nat) (x : Line) : (p.setLine k x).ports = p.ports := rfl
@[simp] theorem setLine_mx (k : Nat) (x : Line) : (p.setLine k x).mx = p.mx := rfl
@[simp] theorem setLine_cue (k : Nat) (x : Line) : (p.setLine k x).cue = p.cue := rfl
@[simp] theorem setLine_cu (k : Nat) (x : Line) : (p.setLine k x).cu = p.cu := rfl
@[simp] theorem setLine_tu (k : Nat) (x : Line) : (p.setLine k x).tu = p.tu := rfl
@[simp] theorem setLine_au (k : Nat) (x : Line) : (p.setLine k x).au = p.au := rfl
@[simp] theorem setLine_ops (k : Nat) (x : Line) : (p.setLine k x).ops = p.ops := rfl
@[simp] theorem setLine_opsDone (k : Nat) (x : Line) : (p.setLine k x).opsDone = p.opsDone := rfl
@[simp] theorem setLine_conds (k : Nat) (x : Line) : (p.setLine k x).conds = p.conds := rfl
@[simp] theorem setLine_events (k : Nat) (x : Line) : (p.setLine k x).events = p.events := rfl
@[simp] theorem setLine_early (k : Nat) (x : Line) : (p.setLine k x).early = p.early := rfl
@[simp] theorem setLine_outbox (k : Nat) (x : Line) : (p.setLine k x).outbox = p.outbox := rfl
@[simp] theorem setLine_cc_kinds (k : Nat) (x : Line) : (p.setLine k x).cc.kinds = p.cc.kinds := rfl
@[simp] theorem setLine_cc_positions (k : Nat) (x : Line) : (p.setLine k x).cc.positions = p.cc.positions := rfl
@[simp] theorem setLine_cc_slots (k : Nat) (x : Line) : (p.setLine k x).cc.slots = p.cc.slots := rfl
@[simp] theorem setLine_cc_groups (k : Nat) (x : Line) : (p.setLine k x).cc.groups = p.cc.groups := rfl
@[simp] theorem setLine_cc_routes (k : Nat) (x : Line) : (p.setLine k x).cc.routes = p.cc.routes := rfl
@[simp] theorem setLine_cc_guards (k : Nat) (x : Line) : (p.setLine k x).cc.guards = p.cc.guards := rfl
@[simp] theorem setLine_cc_digest (k : Nat) (x : Line) : (p.setLine k x).cc.digest = p.cc.digest := rfl
@[simp] theorem setLine_cc_activity (k : Nat) (x : Line) : (p.setLine k x).cc.activity = p.cc.activity := rfl

@[simp] theorem setPosition_ports (k : Nat) (x : Position) : (p.setPosition k x).ports = p.ports := rfl
@[simp] theorem setPosition_mx (k : Nat) (x : Position) : (p.setPosition k x).mx = p.mx := rfl
@[simp] theorem setPosition_cue (k : Nat) (x : Position) : (p.setPosition k x).cue = p.cue := rfl
@[simp] theorem setPosition_cu (k : Nat) (x : Position) : (p.setPosition k x).cu = p.cu := rfl
@[simp] theorem setPosition_tu (k : Nat) (x : Position) : (p.setPosition k x).tu = p.tu := rfl
@[simp] theorem setPosition_au (k : Nat) (x : Position) : (p.setPosition k x).au = p.au := rfl
@[simp] theorem setPosition_ops (k : Nat) (x : Position) : (p.setPosition k x).ops = p.ops := rfl
@[simp] theorem setPosition_opsDone (k : Nat) (x : Position) : (p.setPosition k x).opsDone = p.opsDone := rfl
@[simp] theorem setPosition_conds (k : Nat) (x : Position) : (p.setPosition k x).conds = p.conds := rfl
@[simp] theorem setPosition_events (k : Nat) (x : Position) : (p.setPosition k x).events = p.events := rfl
@[simp] theorem setPosition_early (k : Nat) (x : Position) : (p.setPosition k x).early = p.early := rfl
@[simp] theorem setPosition_outbox (k : Nat) (x : Position) : (p.setPosition k x).outbox = p.outbox := rfl
@[simp] theorem setPosition_cc_lines (k : Nat) (x : Position) : (p.setPosition k x).cc.lines = p.cc.lines := rfl
@[simp] theorem setPosition_cc_kinds (k : Nat) (x : Position) : (p.setPosition k x).cc.kinds = p.cc.kinds := rfl
@[simp] theorem setPosition_cc_slots (k : Nat) (x : Position) : (p.setPosition k x).cc.slots = p.cc.slots := rfl
@[simp] theorem setPosition_cc_groups (k : Nat) (x : Position) : (p.setPosition k x).cc.groups = p.cc.groups := rfl
@[simp] theorem setPosition_cc_routes (k : Nat) (x : Position) : (p.setPosition k x).cc.routes = p.cc.routes := rfl
@[simp] theorem setPosition_cc_guards (k : Nat) (x : Position) : (p.setPosition k x).cc.guards = p.cc.guards := rfl
@[simp] theorem setPosition_cc_digest (k : Nat) (x : Position) : (p.setPosition k x).cc.digest = p.cc.digest := rfl
@[simp] theorem setPosition_cc_activity (k : Nat) (x : Position) : (p.setPosition k x).cc.activity = p.cc.activity := rfl

@[simp] theorem setSlot_ports (k j : Nat) (x : Slot) : (p.setSlot k j x).ports = p.ports := rfl
@[simp] theorem setSlot_mx (k j : Nat) (x : Slot) : (p.setSlot k j x).mx = p.mx := rfl
@[simp] theorem setSlot_cue (k j : Nat) (x : Slot) : (p.setSlot k j x).cue = p.cue := rfl
@[simp] theorem setSlot_cu (k j : Nat) (x : Slot) : (p.setSlot k j x).cu = p.cu := rfl
@[simp] theorem setSlot_tu (k j : Nat) (x : Slot) : (p.setSlot k j x).tu = p.tu := rfl
@[simp] theorem setSlot_au (k j : Nat) (x : Slot) : (p.setSlot k j x).au = p.au := rfl
@[simp] theorem setSlot_ops (k j : Nat) (x : Slot) : (p.setSlot k j x).ops = p.ops := rfl
@[simp] theorem setSlot_opsDone (k j : Nat) (x : Slot) : (p.setSlot k j x).opsDone = p.opsDone := rfl
@[simp] theorem setSlot_conds (k j : Nat) (x : Slot) : (p.setSlot k j x).conds = p.conds := rfl
@[simp] theorem setSlot_events (k j : Nat) (x : Slot) : (p.setSlot k j x).events = p.events := rfl
@[simp] theorem setSlot_early (k j : Nat) (x : Slot) : (p.setSlot k j x).early = p.early := rfl
@[simp] theorem setSlot_outbox (k j : Nat) (x : Slot) : (p.setSlot k j x).outbox = p.outbox := rfl
@[simp] theorem setSlot_cc_lines (k j : Nat) (x : Slot) : (p.setSlot k j x).cc.lines = p.cc.lines := rfl
@[simp] theorem setSlot_cc_kinds (k j : Nat) (x : Slot) : (p.setSlot k j x).cc.kinds = p.cc.kinds := rfl
@[simp] theorem setSlot_cc_positions (k j : Nat) (x : Slot) : (p.setSlot k j x).cc.positions = p.cc.positions := rfl
@[simp] theorem setSlot_cc_groups (k j : Nat) (x : Slot) : (p.setSlot k j x).cc.groups = p.cc.groups := rfl
@[simp] theorem setSlot_cc_routes (k j : Nat) (x : Slot) : (p.setSlot k j x).cc.routes = p.cc.routes := rfl
@[simp] theorem setSlot_cc_guards (k j : Nat) (x : Slot) : (p.setSlot k j x).cc.guards = p.cc.guards := rfl
@[simp] theorem setSlot_cc_digest (k j : Nat) (x : Slot) : (p.setSlot k j x).cc.digest = p.cc.digest := rfl
@[simp] theorem setSlot_cc_activity (k j : Nat) (x : Slot) : (p.setSlot k j x).cc.activity = p.cc.activity := rfl

@[simp] theorem setGroup_ports (k : Nat) (x : Group) : (p.setGroup k x).ports = p.ports := rfl
@[simp] theorem setGroup_mx (k : Nat) (x : Group) : (p.setGroup k x).mx = p.mx := rfl
@[simp] theorem setGroup_cue (k : Nat) (x : Group) : (p.setGroup k x).cue = p.cue := rfl
@[simp] theorem setGroup_cu (k : Nat) (x : Group) : (p.setGroup k x).cu = p.cu := rfl
@[simp] theorem setGroup_tu (k : Nat) (x : Group) : (p.setGroup k x).tu = p.tu := rfl
@[simp] theorem setGroup_au (k : Nat) (x : Group) : (p.setGroup k x).au = p.au := rfl
@[simp] theorem setGroup_ops (k : Nat) (x : Group) : (p.setGroup k x).ops = p.ops := rfl
@[simp] theorem setGroup_opsDone (k : Nat) (x : Group) : (p.setGroup k x).opsDone = p.opsDone := rfl
@[simp] theorem setGroup_conds (k : Nat) (x : Group) : (p.setGroup k x).conds = p.conds := rfl
@[simp] theorem setGroup_events (k : Nat) (x : Group) : (p.setGroup k x).events = p.events := rfl
@[simp] theorem setGroup_early (k : Nat) (x : Group) : (p.setGroup k x).early = p.early := rfl
@[simp] theorem setGroup_outbox (k : Nat) (x : Group) : (p.setGroup k x).outbox = p.outbox := rfl
@[simp] theorem setGroup_cc_lines (k : Nat) (x : Group) : (p.setGroup k x).cc.lines = p.cc.lines := rfl
@[simp] theorem setGroup_cc_kinds (k : Nat) (x : Group) : (p.setGroup k x).cc.kinds = p.cc.kinds := rfl
@[simp] theorem setGroup_cc_positions (k : Nat) (x : Group) : (p.setGroup k x).cc.positions = p.cc.positions := rfl
@[simp] theorem setGroup_cc_slots (k : Nat) (x : Group) : (p.setGroup k x).cc.slots = p.cc.slots := rfl
@[simp] theorem setGroup_cc_routes (k : Nat) (x : Group) : (p.setGroup k x).cc.routes = p.cc.routes := rfl
@[simp] theorem setGroup_cc_guards (k : Nat) (x : Group) : (p.setGroup k x).cc.guards = p.cc.guards := rfl
@[simp] theorem setGroup_cc_digest (k : Nat) (x : Group) : (p.setGroup k x).cc.digest = p.cc.digest := rfl
@[simp] theorem setGroup_cc_activity (k : Nat) (x : Group) : (p.setGroup k x).cc.activity = p.cc.activity := rfl

@[simp] theorem setMixPos_ports (k : Nat) (x : MixPosition) : (p.setMixPos k x).ports = p.ports := rfl
@[simp] theorem setMixPos_cc (k : Nat) (x : MixPosition) : (p.setMixPos k x).cc = p.cc := rfl
@[simp] theorem setMixPos_cue (k : Nat) (x : MixPosition) : (p.setMixPos k x).cue = p.cue := rfl
@[simp] theorem setMixPos_cu (k : Nat) (x : MixPosition) : (p.setMixPos k x).cu = p.cu := rfl
@[simp] theorem setMixPos_tu (k : Nat) (x : MixPosition) : (p.setMixPos k x).tu = p.tu := rfl
@[simp] theorem setMixPos_au (k : Nat) (x : MixPosition) : (p.setMixPos k x).au = p.au := rfl
@[simp] theorem setMixPos_ops (k : Nat) (x : MixPosition) : (p.setMixPos k x).ops = p.ops := rfl
@[simp] theorem setMixPos_opsDone (k : Nat) (x : MixPosition) : (p.setMixPos k x).opsDone = p.opsDone := rfl
@[simp] theorem setMixPos_conds (k : Nat) (x : MixPosition) : (p.setMixPos k x).conds = p.conds := rfl
@[simp] theorem setMixPos_events (k : Nat) (x : MixPosition) : (p.setMixPos k x).events = p.events := rfl
@[simp] theorem setMixPos_early (k : Nat) (x : MixPosition) : (p.setMixPos k x).early = p.early := rfl
@[simp] theorem setMixPos_outbox (k : Nat) (x : MixPosition) : (p.setMixPos k x).outbox = p.outbox := rfl

@[simp] theorem setPlayer_ports (k : Nat) (x : Player) : (p.setPlayer k x).ports = p.ports := rfl
@[simp] theorem setPlayer_cc (k : Nat) (x : Player) : (p.setPlayer k x).cc = p.cc := rfl
@[simp] theorem setPlayer_mx (k : Nat) (x : Player) : (p.setPlayer k x).mx = p.mx := rfl
@[simp] theorem setPlayer_cu (k : Nat) (x : Player) : (p.setPlayer k x).cu = p.cu := rfl
@[simp] theorem setPlayer_tu (k : Nat) (x : Player) : (p.setPlayer k x).tu = p.tu := rfl
@[simp] theorem setPlayer_au (k : Nat) (x : Player) : (p.setPlayer k x).au = p.au := rfl
@[simp] theorem setPlayer_ops (k : Nat) (x : Player) : (p.setPlayer k x).ops = p.ops := rfl
@[simp] theorem setPlayer_opsDone (k : Nat) (x : Player) : (p.setPlayer k x).opsDone = p.opsDone := rfl
@[simp] theorem setPlayer_conds (k : Nat) (x : Player) : (p.setPlayer k x).conds = p.conds := rfl
@[simp] theorem setPlayer_events (k : Nat) (x : Player) : (p.setPlayer k x).events = p.events := rfl
@[simp] theorem setPlayer_early (k : Nat) (x : Player) : (p.setPlayer k x).early = p.early := rfl
@[simp] theorem setPlayer_outbox (k : Nat) (x : Player) : (p.setPlayer k x).outbox = p.outbox := rfl

@[simp] theorem setHighway_ports (k : Nat) (x : Highway) : (p.setHighway k x).ports = p.ports := rfl
@[simp] theorem setHighway_cc (k : Nat) (x : Highway) : (p.setHighway k x).cc = p.cc := rfl
@[simp] theorem setHighway_mx (k : Nat) (x : Highway) : (p.setHighway k x).mx = p.mx := rfl
@[simp] theorem setHighway_cue (k : Nat) (x : Highway) : (p.setHighway k x).cue = p.cue := rfl
@[simp] theorem setHighway_cu (k : Nat) (x : Highway) : (p.setHighway k x).cu = p.cu := rfl
@[simp] theorem setHighway_tu (k : Nat) (x : Highway) : (p.setHighway k x).tu = p.tu := rfl
@[simp] theorem setHighway_ops (k : Nat) (x : Highway) : (p.setHighway k x).ops = p.ops := rfl
@[simp] theorem setHighway_opsDone (k : Nat) (x : Highway) : (p.setHighway k x).opsDone = p.opsDone := rfl
@[simp] theorem setHighway_conds (k : Nat) (x : Highway) : (p.setHighway k x).conds = p.conds := rfl
@[simp] theorem setHighway_events (k : Nat) (x : Highway) : (p.setHighway k x).events = p.events := rfl
@[simp] theorem setHighway_early (k : Nat) (x : Highway) : (p.setHighway k x).early = p.early := rfl
@[simp] theorem setHighway_outbox (k : Nat) (x : Highway) : (p.setHighway k x).outbox = p.outbox := rfl

@[simp] theorem note_ports (x : Notice) : (p.note x).ports = p.ports := rfl
@[simp] theorem note_cc (x : Notice) : (p.note x).cc = p.cc := rfl
@[simp] theorem note_mx (x : Notice) : (p.note x).mx = p.mx := rfl
@[simp] theorem note_cue (x : Notice) : (p.note x).cue = p.cue := rfl
@[simp] theorem note_cu (x : Notice) : (p.note x).cu = p.cu := rfl
@[simp] theorem note_tu (x : Notice) : (p.note x).tu = p.tu := rfl
@[simp] theorem note_au (x : Notice) : (p.note x).au = p.au := rfl
@[simp] theorem note_ops (x : Notice) : (p.note x).ops = p.ops := rfl
@[simp] theorem note_opsDone (x : Notice) : (p.note x).opsDone = p.opsDone := rfl
@[simp] theorem note_conds (x : Notice) : (p.note x).conds = p.conds := rfl
@[simp] theorem note_events (x : Notice) : (p.note x).events = p.events := rfl
@[simp] theorem note_early (x : Notice) : (p.note x).early = p.early := rfl

@[simp] theorem raise_ports (x : Instr) : (p.raise x).ports = p.ports := rfl
@[simp] theorem raise_cc (x : Instr) : (p.raise x).cc = p.cc := rfl
@[simp] theorem raise_mx (x : Instr) : (p.raise x).mx = p.mx := rfl
@[simp] theorem raise_cue (x : Instr) : (p.raise x).cue = p.cue := rfl
@[simp] theorem raise_cu (x : Instr) : (p.raise x).cu = p.cu := rfl
@[simp] theorem raise_tu (x : Instr) : (p.raise x).tu = p.tu := rfl
@[simp] theorem raise_au (x : Instr) : (p.raise x).au = p.au := rfl
@[simp] theorem raise_ops (x : Instr) : (p.raise x).ops = p.ops := rfl
@[simp] theorem raise_opsDone (x : Instr) : (p.raise x).opsDone = p.opsDone := rfl
@[simp] theorem raise_conds (x : Instr) : (p.raise x).conds = p.conds := rfl
@[simp] theorem raise_early (x : Instr) : (p.raise x).early = p.early := rfl
@[simp] theorem raise_outbox (x : Instr) : (p.raise x).outbox = p.outbox := rfl

@[simp] theorem took_ports (x : Instr) : (p.took x).ports = p.ports := rfl
@[simp] theorem took_cc (x : Instr) : (p.took x).cc = p.cc := rfl
@[simp] theorem took_mx (x : Instr) : (p.took x).mx = p.mx := rfl
@[simp] theorem took_cue (x : Instr) : (p.took x).cue = p.cue := rfl
@[simp] theorem took_cu (x : Instr) : (p.took x).cu = p.cu := rfl
@[simp] theorem took_tu (x : Instr) : (p.took x).tu = p.tu := rfl
@[simp] theorem took_au (x : Instr) : (p.took x).au = p.au := rfl
@[simp] theorem took_ops (x : Instr) : (p.took x).ops = p.ops := rfl
@[simp] theorem took_opsDone (x : Instr) : (p.took x).opsDone = p.opsDone := rfl
@[simp] theorem took_conds (x : Instr) : (p.took x).conds = p.conds := rfl
@[simp] theorem took_early (x : Instr) : (p.took x).early = p.early := rfl
@[simp] theorem took_outbox (x : Instr) : (p.took x).outbox = p.outbox := rfl

@[simp] theorem setMixPos_mx_lists (k : Nat) (x : MixPosition) : (p.setMixPos k x).mx.lists = p.mx.lists := rfl
@[simp] theorem setMixPos_mx_omitted (k : Nat) (x : MixPosition) : (p.setMixPos k x).mx.omitted = p.mx.omitted := rfl
@[simp] theorem note_outbox (x : Notice) : (p.note x).outbox = p.outbox ++ [x] := rfl
@[simp] theorem raise_events (x : Instr) : (p.raise x).events = p.events ++ [x] := rfl
@[simp] theorem took_events (x : Instr) : (p.took x).events = p.events.erase x := rfl

/-! ### Reading after a write -/

@[simp] theorem line_setLine_same {k : Nat} (h : k < 192) (x : Line) : (p.setLine k x).line k = x := vget_vset_same _ h _ _
theorem line_setLine_ne {k j : Nat} (h : k ≠ j) (x : Line) : (p.setLine k x).line j = p.line j := vget_vset_ne _ h _ _

@[simp] theorem port_setPort_same {k : Nat} (h : k < 192) (x : Port) : (p.setPort k x).port k = x := vget_vset_same _ h _ _
theorem port_setPort_ne {k j : Nat} (h : k ≠ j) (x : Port) : (p.setPort k x).port j = p.port j := vget_vset_ne _ h _ _

@[simp] theorem position_setPosition_same {k : Nat} (h : k < 24) (x : Position) : (p.setPosition k x).position k = x := vget_vset_same _ h _ _
theorem position_setPosition_ne {k j : Nat} (h : k ≠ j) (x : Position) : (p.setPosition k x).position j = p.position j := vget_vset_ne _ h _ _

@[simp] theorem group_setGroup_same {k : Nat} (h : k < 32) (x : Group) : (p.setGroup k x).group k = x := vget_vset_same _ h _ _
theorem group_setGroup_ne {k j : Nat} (h : k ≠ j) (x : Group) : (p.setGroup k x).group j = p.group j := vget_vset_ne _ h _ _

@[simp] theorem mixPos_setMixPos_same {k : Nat} (h : k < 24) (x : MixPosition) : (p.setMixPos k x).mixPos k = x := vget_vset_same _ h _ _
theorem mixPos_setMixPos_ne {k j : Nat} (h : k ≠ j) (x : MixPosition) : (p.setMixPos k x).mixPos j = p.mixPos j := vget_vset_ne _ h _ _

@[simp] theorem player_setPlayer_same {k : Nat} (h : k < 8) (x : Player) : (p.setPlayer k x).player k = x := vget_vset_same _ h _ _
theorem player_setPlayer_ne {k j : Nat} (h : k ≠ j) (x : Player) : (p.setPlayer k x).player j = p.player j := vget_vset_ne _ h _ _

@[simp] theorem highway_setHighway_same {k : Nat} (h : k < 4) (x : Highway) : (p.setHighway k x).highway k = x := vget_vset_same _ h _ _
theorem highway_setHighway_ne {k j : Nat} (h : k ≠ j) (x : Highway) : (p.setHighway k x).highway j = p.highway j := vget_vset_ne _ h _ _

@[simp] theorem line_setPort (k : Nat) (x : Port) (m : Nat) : (p.setPort k x).line m = p.line m := rfl
@[simp] theorem line_setPosition (k : Nat) (x : Position) (m : Nat) : (p.setPosition k x).line m = p.line m := rfl
@[simp] theorem line_setSlot (k j : Nat) (x : Slot) (m : Nat) : (p.setSlot k j x).line m = p.line m := rfl
@[simp] theorem line_setGroup (k : Nat) (x : Group) (m : Nat) : (p.setGroup k x).line m = p.line m := rfl
@[simp] theorem line_setMixPos (k : Nat) (x : MixPosition) (m : Nat) : (p.setMixPos k x).line m = p.line m := rfl
@[simp] theorem line_setPlayer (k : Nat) (x : Player) (m : Nat) : (p.setPlayer k x).line m = p.line m := rfl
@[simp] theorem line_setHighway (k : Nat) (x : Highway) (m : Nat) : (p.setHighway k x).line m = p.line m := rfl
@[simp] theorem line_note (x : Notice) (m : Nat) : (p.note x).line m = p.line m := rfl
@[simp] theorem line_raise (x : Instr) (m : Nat) : (p.raise x).line m = p.line m := rfl
@[simp] theorem line_took (x : Instr) (m : Nat) : (p.took x).line m = p.line m := rfl

@[simp] theorem port_setLine (k : Nat) (x : Line) (m : Nat) : (p.setLine k x).port m = p.port m := rfl
@[simp] theorem port_setPosition (k : Nat) (x : Position) (m : Nat) : (p.setPosition k x).port m = p.port m := rfl
@[simp] theorem port_setSlot (k j : Nat) (x : Slot) (m : Nat) : (p.setSlot k j x).port m = p.port m := rfl
@[simp] theorem port_setGroup (k : Nat) (x : Group) (m : Nat) : (p.setGroup k x).port m = p.port m := rfl
@[simp] theorem port_setMixPos (k : Nat) (x : MixPosition) (m : Nat) : (p.setMixPos k x).port m = p.port m := rfl
@[simp] theorem port_setPlayer (k : Nat) (x : Player) (m : Nat) : (p.setPlayer k x).port m = p.port m := rfl
@[simp] theorem port_setHighway (k : Nat) (x : Highway) (m : Nat) : (p.setHighway k x).port m = p.port m := rfl
@[simp] theorem port_note (x : Notice) (m : Nat) : (p.note x).port m = p.port m := rfl
@[simp] theorem port_raise (x : Instr) (m : Nat) : (p.raise x).port m = p.port m := rfl
@[simp] theorem port_took (x : Instr) (m : Nat) : (p.took x).port m = p.port m := rfl

@[simp] theorem position_setPort (k : Nat) (x : Port) (m : Nat) : (p.setPort k x).position m = p.position m := rfl
@[simp] theorem position_setLine (k : Nat) (x : Line) (m : Nat) : (p.setLine k x).position m = p.position m := rfl
@[simp] theorem position_setSlot (k j : Nat) (x : Slot) (m : Nat) : (p.setSlot k j x).position m = p.position m := rfl
@[simp] theorem position_setGroup (k : Nat) (x : Group) (m : Nat) : (p.setGroup k x).position m = p.position m := rfl
@[simp] theorem position_setMixPos (k : Nat) (x : MixPosition) (m : Nat) : (p.setMixPos k x).position m = p.position m := rfl
@[simp] theorem position_setPlayer (k : Nat) (x : Player) (m : Nat) : (p.setPlayer k x).position m = p.position m := rfl
@[simp] theorem position_setHighway (k : Nat) (x : Highway) (m : Nat) : (p.setHighway k x).position m = p.position m := rfl
@[simp] theorem position_note (x : Notice) (m : Nat) : (p.note x).position m = p.position m := rfl
@[simp] theorem position_raise (x : Instr) (m : Nat) : (p.raise x).position m = p.position m := rfl
@[simp] theorem position_took (x : Instr) (m : Nat) : (p.took x).position m = p.position m := rfl

@[simp] theorem group_setPort (k : Nat) (x : Port) (m : Nat) : (p.setPort k x).group m = p.group m := rfl
@[simp] theorem group_setLine (k : Nat) (x : Line) (m : Nat) : (p.setLine k x).group m = p.group m := rfl
@[simp] theorem group_setPosition (k : Nat) (x : Position) (m : Nat) : (p.setPosition k x).group m = p.group m := rfl
@[simp] theorem group_setSlot (k j : Nat) (x : Slot) (m : Nat) : (p.setSlot k j x).group m = p.group m := rfl
@[simp] theorem group_setMixPos (k : Nat) (x : MixPosition) (m : Nat) : (p.setMixPos k x).group m = p.group m := rfl
@[simp] theorem group_setPlayer (k : Nat) (x : Player) (m : Nat) : (p.setPlayer k x).group m = p.group m := rfl
@[simp] theorem group_setHighway (k : Nat) (x : Highway) (m : Nat) : (p.setHighway k x).group m = p.group m := rfl
@[simp] theorem group_note (x : Notice) (m : Nat) : (p.note x).group m = p.group m := rfl
@[simp] theorem group_raise (x : Instr) (m : Nat) : (p.raise x).group m = p.group m := rfl
@[simp] theorem group_took (x : Instr) (m : Nat) : (p.took x).group m = p.group m := rfl

@[simp] theorem mixPos_setPort (k : Nat) (x : Port) (m : Nat) : (p.setPort k x).mixPos m = p.mixPos m := rfl
@[simp] theorem mixPos_setLine (k : Nat) (x : Line) (m : Nat) : (p.setLine k x).mixPos m = p.mixPos m := rfl
@[simp] theorem mixPos_setPosition (k : Nat) (x : Position) (m : Nat) : (p.setPosition k x).mixPos m = p.mixPos m := rfl
@[simp] theorem mixPos_setSlot (k j : Nat) (x : Slot) (m : Nat) : (p.setSlot k j x).mixPos m = p.mixPos m := rfl
@[simp] theorem mixPos_setGroup (k : Nat) (x : Group) (m : Nat) : (p.setGroup k x).mixPos m = p.mixPos m := rfl
@[simp] theorem mixPos_setPlayer (k : Nat) (x : Player) (m : Nat) : (p.setPlayer k x).mixPos m = p.mixPos m := rfl
@[simp] theorem mixPos_setHighway (k : Nat) (x : Highway) (m : Nat) : (p.setHighway k x).mixPos m = p.mixPos m := rfl
@[simp] theorem mixPos_note (x : Notice) (m : Nat) : (p.note x).mixPos m = p.mixPos m := rfl
@[simp] theorem mixPos_raise (x : Instr) (m : Nat) : (p.raise x).mixPos m = p.mixPos m := rfl
@[simp] theorem mixPos_took (x : Instr) (m : Nat) : (p.took x).mixPos m = p.mixPos m := rfl

@[simp] theorem player_setPort (k : Nat) (x : Port) (m : Nat) : (p.setPort k x).player m = p.player m := rfl
@[simp] theorem player_setLine (k : Nat) (x : Line) (m : Nat) : (p.setLine k x).player m = p.player m := rfl
@[simp] theorem player_setPosition (k : Nat) (x : Position) (m : Nat) : (p.setPosition k x).player m = p.player m := rfl
@[simp] theorem player_setSlot (k j : Nat) (x : Slot) (m : Nat) : (p.setSlot k j x).player m = p.player m := rfl
@[simp] theorem player_setGroup (k : Nat) (x : Group) (m : Nat) : (p.setGroup k x).player m = p.player m := rfl
@[simp] theorem player_setMixPos (k : Nat) (x : MixPosition) (m : Nat) : (p.setMixPos k x).player m = p.player m := rfl
@[simp] theorem player_setHighway (k : Nat) (x : Highway) (m : Nat) : (p.setHighway k x).player m = p.player m := rfl
@[simp] theorem player_note (x : Notice) (m : Nat) : (p.note x).player m = p.player m := rfl
@[simp] theorem player_raise (x : Instr) (m : Nat) : (p.raise x).player m = p.player m := rfl
@[simp] theorem player_took (x : Instr) (m : Nat) : (p.took x).player m = p.player m := rfl

@[simp] theorem highway_setPort (k : Nat) (x : Port) (m : Nat) : (p.setPort k x).highway m = p.highway m := rfl
@[simp] theorem highway_setLine (k : Nat) (x : Line) (m : Nat) : (p.setLine k x).highway m = p.highway m := rfl
@[simp] theorem highway_setPosition (k : Nat) (x : Position) (m : Nat) : (p.setPosition k x).highway m = p.highway m := rfl
@[simp] theorem highway_setSlot (k j : Nat) (x : Slot) (m : Nat) : (p.setSlot k j x).highway m = p.highway m := rfl
@[simp] theorem highway_setGroup (k : Nat) (x : Group) (m : Nat) : (p.setGroup k x).highway m = p.highway m := rfl
@[simp] theorem highway_setMixPos (k : Nat) (x : MixPosition) (m : Nat) : (p.setMixPos k x).highway m = p.highway m := rfl
@[simp] theorem highway_setPlayer (k : Nat) (x : Player) (m : Nat) : (p.setPlayer k x).highway m = p.highway m := rfl
@[simp] theorem highway_note (x : Notice) (m : Nat) : (p.note x).highway m = p.highway m := rfl
@[simp] theorem highway_raise (x : Instr) (m : Nat) : (p.raise x).highway m = p.highway m := rfl
@[simp] theorem highway_took (x : Instr) (m : Nat) : (p.took x).highway m = p.highway m := rfl

@[simp] theorem guardOf_setPort (k : Nat) (x : Port) (m : Nat) : (p.setPort k x).guardOf m = p.guardOf m := rfl
@[simp] theorem guardOf_setLine (k : Nat) (x : Line) (m : Nat) : (p.setLine k x).guardOf m = p.guardOf m := rfl
@[simp] theorem guardOf_setPosition (k : Nat) (x : Position) (m : Nat) : (p.setPosition k x).guardOf m = p.guardOf m := rfl
@[simp] theorem guardOf_setSlot (k j : Nat) (x : Slot) (m : Nat) : (p.setSlot k j x).guardOf m = p.guardOf m := rfl
@[simp] theorem guardOf_setGroup (k : Nat) (x : Group) (m : Nat) : (p.setGroup k x).guardOf m = p.guardOf m := rfl
@[simp] theorem guardOf_setMixPos (k : Nat) (x : MixPosition) (m : Nat) : (p.setMixPos k x).guardOf m = p.guardOf m := rfl
@[simp] theorem guardOf_setPlayer (k : Nat) (x : Player) (m : Nat) : (p.setPlayer k x).guardOf m = p.guardOf m := rfl
@[simp] theorem guardOf_setHighway (k : Nat) (x : Highway) (m : Nat) : (p.setHighway k x).guardOf m = p.guardOf m := rfl
@[simp] theorem guardOf_note (x : Notice) (m : Nat) : (p.note x).guardOf m = p.guardOf m := rfl
@[simp] theorem guardOf_raise (x : Instr) (m : Nat) : (p.raise x).guardOf m = p.guardOf m := rfl
@[simp] theorem guardOf_took (x : Instr) (m : Nat) : (p.took x).guardOf m = p.guardOf m := rfl

@[simp] theorem mixList_setPort (k : Nat) (x : Port) (m : Nat) : (p.setPort k x).mixList m = p.mixList m := rfl
@[simp] theorem mixList_setLine (k : Nat) (x : Line) (m : Nat) : (p.setLine k x).mixList m = p.mixList m := rfl
@[simp] theorem mixList_setPosition (k : Nat) (x : Position) (m : Nat) : (p.setPosition k x).mixList m = p.mixList m := rfl
@[simp] theorem mixList_setSlot (k j : Nat) (x : Slot) (m : Nat) : (p.setSlot k j x).mixList m = p.mixList m := rfl
@[simp] theorem mixList_setGroup (k : Nat) (x : Group) (m : Nat) : (p.setGroup k x).mixList m = p.mixList m := rfl
@[simp] theorem mixList_setMixPos (k : Nat) (x : MixPosition) (m : Nat) : (p.setMixPos k x).mixList m = p.mixList m := rfl
@[simp] theorem mixList_setPlayer (k : Nat) (x : Player) (m : Nat) : (p.setPlayer k x).mixList m = p.mixList m := rfl
@[simp] theorem mixList_setHighway (k : Nat) (x : Highway) (m : Nat) : (p.setHighway k x).mixList m = p.mixList m := rfl
@[simp] theorem mixList_note (x : Notice) (m : Nat) : (p.note x).mixList m = p.mixList m := rfl
@[simp] theorem mixList_raise (x : Instr) (m : Nat) : (p.raise x).mixList m = p.mixList m := rfl
@[simp] theorem mixList_took (x : Instr) (m : Nat) : (p.took x).mixList m = p.mixList m := rfl

@[simp] theorem busTalkers_setPort (k : Nat) (x : Port) (m : Nat) : (p.setPort k x).busTalkers m = p.busTalkers m := rfl
@[simp] theorem busTalkers_setLine (k : Nat) (x : Line) (m : Nat) : (p.setLine k x).busTalkers m = p.busTalkers m := rfl
@[simp] theorem busTalkers_setPosition (k : Nat) (x : Position) (m : Nat) : (p.setPosition k x).busTalkers m = p.busTalkers m := rfl
@[simp] theorem busTalkers_setSlot (k j : Nat) (x : Slot) (m : Nat) : (p.setSlot k j x).busTalkers m = p.busTalkers m := rfl
@[simp] theorem busTalkers_setGroup (k : Nat) (x : Group) (m : Nat) : (p.setGroup k x).busTalkers m = p.busTalkers m := rfl
@[simp] theorem busTalkers_setMixPos (k : Nat) (x : MixPosition) (m : Nat) : (p.setMixPos k x).busTalkers m = p.busTalkers m := rfl
@[simp] theorem busTalkers_setPlayer (k : Nat) (x : Player) (m : Nat) : (p.setPlayer k x).busTalkers m = p.busTalkers m := rfl
@[simp] theorem busTalkers_setHighway (k : Nat) (x : Highway) (m : Nat) : (p.setHighway k x).busTalkers m = p.busTalkers m := rfl
@[simp] theorem busTalkers_note (x : Notice) (m : Nat) : (p.note x).busTalkers m = p.busTalkers m := rfl
@[simp] theorem busTalkers_raise (x : Instr) (m : Nat) : (p.raise x).busTalkers m = p.busTalkers m := rfl
@[simp] theorem busTalkers_took (x : Instr) (m : Nat) : (p.took x).busTalkers m = p.busTalkers m := rfl

@[simp] theorem slot_setPort (k : Nat) (x : Port) (m i : Nat) : (p.setPort k x).slot m i = p.slot m i := rfl
@[simp] theorem slot_setLine (k : Nat) (x : Line) (m i : Nat) : (p.setLine k x).slot m i = p.slot m i := rfl
@[simp] theorem slot_setPosition (k : Nat) (x : Position) (m i : Nat) : (p.setPosition k x).slot m i = p.slot m i := rfl
@[simp] theorem slot_setGroup (k : Nat) (x : Group) (m i : Nat) : (p.setGroup k x).slot m i = p.slot m i := rfl
@[simp] theorem slot_setMixPos (k : Nat) (x : MixPosition) (m i : Nat) : (p.setMixPos k x).slot m i = p.slot m i := rfl
@[simp] theorem slot_setPlayer (k : Nat) (x : Player) (m i : Nat) : (p.setPlayer k x).slot m i = p.slot m i := rfl
@[simp] theorem slot_setHighway (k : Nat) (x : Highway) (m i : Nat) : (p.setHighway k x).slot m i = p.slot m i := rfl
@[simp] theorem slot_note (x : Notice) (m i : Nat) : (p.note x).slot m i = p.slot m i := rfl
@[simp] theorem slot_raise (x : Instr) (m i : Nat) : (p.raise x).slot m i = p.slot m i := rfl
@[simp] theorem slot_took (x : Instr) (m i : Nat) : (p.took x).slot m i = p.slot m i := rfl

@[simp] theorem slot_setSlot_same {k j : Nat} (hk : k < 24) (hj : j < 12) (x : Slot) : (p.setSlot k j x).slot k j = x :=
  vget_vset_same _ (by omega) _ _

theorem slot_setSlot_ne {k j m i : Nat} (hj : j < 12) (hi : i < 12) (h : k ≠ m ∨ j ≠ i) (x : Slot) :
    (p.setSlot k j x).slot m i = p.slot m i :=
  vget_vset_ne _ (by omega) _ _

end Setters

end Sys2Proof.Machine
end

