-- ==== Sys2Proof/Laws/Blocks.lean ====
section
/-! SUPPORT. One specification lemma per operation that the blocks share: conditions, edits, the port, the two sides of the
occupancy relation, the check of a line record, the journal. -/

namespace Sys2Proof.Machine

open Sys2Proof

/-! ### Conditions -/

/-- A cause handed to CP: either the latch is set and CONDITION is told, or only the cause changes (R204). -/
theorem setCause_cases (p : Part) (n : Nat) (b : Bool) :
    (b = true ∧ (vget p.conds n {}).cause = false ∧ (vget p.conds n {}).latch = false
        ∧ p.setCause n b = { p with conds := vset p.conds n { cause := true, latch := true },
                                    outbox := p.outbox ++ [.condition n] })
      ∨ p.setCause n b = { p with conds := vset p.conds n { vget p.conds n {} with cause := b } } := by
  simp only [Part.setCause]
  split
  · rename_i h
    simp only [Bool.and_eq_true, Bool.not_eq_true'] at h
    exact .inl ⟨h.1.1, h.1.2, h.2, rfl⟩
  · exact .inr rfl

/-- A cause handed to CP touches conditions and the event's notices only (R204). -/
theorem setCause_keeps (p : Part) (n : Nat) (b : Bool) :
    p.setCause n b = { p with conds := (p.setCause n b).conds, outbox := (p.setCause n b).outbox } := by
  rcases setCause_cases p n b with ⟨_, _, _, h⟩ | h <;> rw [h]

@[simp] theorem setCause_ports (p : Part) (n : Nat) (b : Bool) : (p.setCause n b).ports = p.ports := by
  rw [setCause_keeps]
@[simp] theorem setCause_cc (p : Part) (n : Nat) (b : Bool) : (p.setCause n b).cc = p.cc := by rw [setCause_keeps]
@[simp] theorem setCause_mx (p : Part) (n : Nat) (b : Bool) : (p.setCause n b).mx = p.mx := by rw [setCause_keeps]
@[simp] theorem setCause_cue (p : Part) (n : Nat) (b : Bool) : (p.setCause n b).cue = p.cue := by rw [setCause_keeps]
@[simp] theorem setCause_cu (p : Part) (n : Nat) (b : Bool) : (p.setCause n b).cu = p.cu := by rw [setCause_keeps]
@[simp] theorem setCause_tu (p : Part) (n : Nat) (b : Bool) : (p.setCause n b).tu = p.tu := by rw [setCause_keeps]
@[simp] theorem setCause_au (p : Part) (n : Nat) (b : Bool) : (p.setCause n b).au = p.au := by rw [setCause_keeps]
@[simp] theorem setCause_ops (p : Part) (n : Nat) (b : Bool) : (p.setCause n b).ops = p.ops := by rw [setCause_keeps]
@[simp] theorem setCause_opsDone (p : Part) (n : Nat) (b : Bool) : (p.setCause n b).opsDone = p.opsDone := by
  rw [setCause_keeps]
@[simp] theorem setCause_events (p : Part) (n : Nat) (b : Bool) : (p.setCause n b).events = p.events := by
  rw [setCause_keeps]
@[simp] theorem setCause_early (p : Part) (n : Nat) (b : Bool) : (p.setCause n b).early = p.early := by
  rw [setCause_keeps]

/-! ### Edits -/

/-- MX takes an edit exactly when it fits, applies it, and judges MIX_HIGH again (R101, R102, R107). -/
theorem edit?_eq_some {p q : Part} {outs : List Nat} :
    p.edit? outs = some q ↔
      editFits p.mx (editOf p outs) = true
        ∧ q = Part.judgeMixHigh { p with mx := p.mx.apply (editOf p outs) } := by
  simp only [Part.edit?]
  split
  · rename_i h; simp [h, eq_comm]
  · rename_i h; simp [h]

/-- An edit of an event: applied when it fits, else nothing (R104). -/
theorem edit_cases (p : Part) (outs : List Nat) :
    (editFits p.mx (editOf p outs) = true
        ∧ p.edit outs = Part.judgeMixHigh { p with mx := p.mx.apply (editOf p outs) })
      ∨ (editFits p.mx (editOf p outs) = false ∧ p.edit outs = p) := by
  simp only [Part.edit, Part.edit?]
  cases h : editFits p.mx (editOf p outs) <;> simp

/-- An edit touches MX, the conditions and the event's notices only. -/
theorem edit_keeps (p : Part) (outs : List Nat) :
    p.edit outs = { p with mx := (p.edit outs).mx, conds := (p.edit outs).conds, outbox := (p.edit outs).outbox } := by
  rcases edit_cases p outs with ⟨_, h⟩ | ⟨_, h⟩ <;> rw [h]
  simp only [Part.judgeMixHigh, setCause_mx]
  exact setCause_keeps _ _ _

@[simp] theorem edit_ports (p : Part) (outs : List Nat) : (p.edit outs).ports = p.ports := by rw [edit_keeps]
@[simp] theorem edit_cc (p : Part) (outs : List Nat) : (p.edit outs).cc = p.cc := by rw [edit_keeps]
@[simp] theorem edit_cue (p : Part) (outs : List Nat) : (p.edit outs).cue = p.cue := by rw [edit_keeps]
@[simp] theorem edit_cu (p : Part) (outs : List Nat) : (p.edit outs).cu = p.cu := by rw [edit_keeps]
@[simp] theorem edit_tu (p : Part) (outs : List Nat) : (p.edit outs).tu = p.tu := by rw [edit_keeps]
@[simp] theorem edit_au (p : Part) (outs : List Nat) : (p.edit outs).au = p.au := by rw [edit_keeps]
@[simp] theorem edit_ops (p : Part) (outs : List Nat) : (p.edit outs).ops = p.ops := by rw [edit_keeps]
@[simp] theorem edit_opsDone (p : Part) (outs : List Nat) : (p.edit outs).opsDone = p.opsDone := by rw [edit_keeps]
@[simp] theorem edit_events (p : Part) (outs : List Nat) : (p.edit outs).events = p.events := by rw [edit_keeps]
@[simp] theorem edit_early (p : Part) (outs : List Nat) : (p.edit outs).early = p.early := by rw [edit_keeps]

/-- An output's list depends on CC's tables and CU's taps only (R94 to R98). -/
theorem derive_congr {p q : Part} (hc : p.cc = q.cc) (hu : p.cu = q.cu) (o : Nat) : derive p o = derive q o := by
  have hpos : ∀ k, p.position k = q.position k := fun k => by rw [Part.position, Part.position, hc]
  have hlin : ∀ k, p.line k = q.line k := fun k => by rw [Part.line, Part.line, hc]
  have hslot : ∀ k j, p.slot k j = q.slot k j := fun k j => by rw [Part.slot, Part.slot, hc]
  have hroute : ∀ o, routeWants p o = routeWants q o := fun o => by rw [routeWants, routeWants, hc]
  have hring : ∀ k, ringWants p k = ringWants q k := fun k => by rw [ringWants, ringWants, hpos, hc]
  have hback : ∀ k, recallWants p k = recallWants q k := fun k => by rw [recallWants, recallWants, hc]
  have hlisten : ∀ k, listeningSlots p k = listeningSlots q k := fun k => by simp only [listeningSlots, hpos, hslot]
  have hear : ∀ k d, earWants p k d = earWants q k d := fun k d => by simp only [earWants, hpos, hroute]
  have hside : ∀ k d, sideWants p k d = sideWants q k d := fun k d => by
    simp only [sideWants, hlisten, hpos, hring, hback, hroute]
  have hsend : ∀ n, sendWants p n = sendWants q n := fun n => by simp only [sendWants, hlin, hpos]
  have hchan : ∀ c, channelDevice p c = channelDevice q c := fun c => by rw [channelDevice, channelDevice, hu]
  have hrec : ∀ c, recWants p c = recWants q c := fun c => by simp only [recWants, hchan, hpos]
  simp only [derive, hpos, hear, hside, hsend, hrec]

theorem editOf_congr {p q : Part} (hc : p.cc = q.cc) (hu : p.cu = q.cu) (outs : List Nat) : editOf p outs = editOf q outs := by
  simp only [editOf, derive_congr hc hu]

/-- What an edit makes of MX depends on CC, CU and MX only. -/
theorem edit_mx_congr {p q : Part} (hc : p.cc = q.cc) (hu : p.cu = q.cu) (hm : p.mx = q.mx) (outs : List Nat) :
    (p.edit outs).mx = (q.edit outs).mx := by
  rcases edit_cases p outs with ⟨a, b⟩ | ⟨a, b⟩ <;> rcases edit_cases q outs with ⟨c, d⟩ | ⟨c, d⟩ <;>
    rw [editOf_congr hc hu, hm] at a
  · rw [b, d]; simp only [Part.judgeMixHigh, setCause_mx, editOf_congr hc hu, hm]
  · simp [a] at c
  · simp [a] at c
  · rw [b, d, hm]

/-! ### The port -/

/-- CC hands LSU a line's state: that port's burst, outgoing lead, incoming timer and out-of-service mark, nothing else
(R34, R36, R39). -/
theorem handPort_eq (p : Part) (n : Nat) :
    ∃ burst timer, p.handPort n = p.setPort n { p.port n with
      burst := burst, outLead := leadFor (p.line n) burst, inTimer := timer,
      outOfService := (p.line n).state == .outOfService } :=
  ⟨_, _, rfl⟩

@[simp] theorem handPort_cc (p : Part) (n : Nat) : (p.handPort n).cc = p.cc := rfl
@[simp] theorem handPort_mx (p : Part) (n : Nat) : (p.handPort n).mx = p.mx := rfl
@[simp] theorem handPort_cue (p : Part) (n : Nat) : (p.handPort n).cue = p.cue := rfl
@[simp] theorem handPort_cu (p : Part) (n : Nat) : (p.handPort n).cu = p.cu := rfl
@[simp] theorem handPort_tu (p : Part) (n : Nat) : (p.handPort n).tu = p.tu := rfl
@[simp] theorem handPort_au (p : Part) (n : Nat) : (p.handPort n).au = p.au := rfl
@[simp] theorem handPort_conds (p : Part) (n : Nat) : (p.handPort n).conds = p.conds := rfl
@[simp] theorem handPort_events (p : Part) (n : Nat) : (p.handPort n).events = p.events := rfl
@[simp] theorem handPort_outbox (p : Part) (n : Nat) : (p.handPort n).outbox = p.outbox := rfl

theorem handPort_port_ne (p : Part) {n m : Nat} (h : n ≠ m) : (p.handPort n).port m = p.port m :=
  vget_vset_ne _ h _ _

/-- The outgoing lead after CC has handed LSU the line's state (R34). -/
theorem handPort_outLead (p : Part) {n : Nat} (h : n < 192) :
    ((p.handPort n).port n).outLead
      = leadFor (p.line n) (if (p.line n).state = .connected then (p.port n).burst else 0) := by
  unfold Part.handPort Part.port Part.setPort
  rw [vget_vset_same _ h]

/-! ### Joins and leaves -/

/-- A join puts the occupant at the end of the line's list and the line at the end of the device's (R43). -/
theorem attach_line (p : Part) {n : Nat} (h : n < 192) (o : Occupant) :
    (p.attach n o).line n = { p.line n with occupants := (p.line n).occupants ++ [o] } :=
  vget_vset_same _ h _ _

theorem attach_line_ne (p : Part) {n m : Nat} (h : n ≠ m) (o : Occupant) : (p.attach n o).line m = p.line m :=
  vget_vset_ne _ h _ _

theorem attach_position (p : Part) (n : Nat) {o : Occupant} (h : o.1 < 24) :
    (p.attach n o).position o.1 = (p.position o.1).join o.2 n :=
  vget_vset_same _ h _ _

theorem attach_position_ne (p : Part) (n : Nat) {o : Occupant} {m : Nat} (h : o.1 ≠ m) :
    (p.attach n o).position m = p.position m :=
  vget_vset_ne _ h _ _

/-- A join touches the line's record and the position's record only. -/
theorem attach_keeps (p : Part) (n : Nat) (o : Occupant) :
    p.attach n o = { p with cc := { p.cc with lines := (p.attach n o).cc.lines, positions := (p.attach n o).cc.positions } } :=
  rfl

/-- A handset's leave takes it out of the line's list and the line out of the device's (R43). -/
theorem detach_handset_line (p : Part) {n : Nat} (h : n < 192) (o : Occupant) (hd : o.2 ≠ .sk) :
    (p.detach n o).line n = { p.line n with occupants := (p.line n).occupants.filter (· ≠ o) } := by
  obtain ⟨pos, d⟩ := o
  cases d
  · exact vget_vset_same _ h _ _
  · exact vget_vset_same _ h _ _
  · exact absurd rfl hd

theorem detach_handset_position (p : Part) (n : Nat) {o : Occupant} (h : o.1 < 24) (hd : o.2 ≠ .sk) :
    (p.detach n o).position o.1 = (p.position o.1).unjoin o.2 n := by
  obtain ⟨pos, d⟩ := o
  cases d
  · exact vget_vset_same _ h _ _
  · exact vget_vset_same _ h _ _
  · exact absurd rfl hd

/-- SK's talk entry is cleared (R77). -/
theorem clearSk_sk (p : Part) {pos : Nat} (h : pos < 24) : ((p.clearSk pos).position pos).sk = none := by
  simp only [Part.clearSk, Part.position, Part.setPosition]
  rw [vget_vset_same _ h]

/-- A leave touches the line's record, the position's record and, for SK, the slot it talked through. -/
theorem detach_keeps (p : Part) (n : Nat) (o : Occupant) :
    p.detach n o = { p with cc := { p.cc with
      lines := (p.detach n o).cc.lines, positions := (p.detach n o).cc.positions,
      slots := (p.detach n o).cc.slots } } := by
  obtain ⟨pos, d⟩ := o
  cases d
  · rfl
  · rfl
  · simp only [Part.detach, Part.clearSk]
    split <;> rfl

/-! ### The check of a line record -/

/-- A sound record is read as it stands; what the event has told so far goes ahead of its reply (R61). -/
theorem useLine_sound (p : Part) {n : Nat} (h : (p.line n).damage = none) :
    p.useLine n = { p with early := p.early ++ p.outbox, outbox := [] } := by
  simp only [Part.useLine, Part.checkLine, h]

/-- A sound record passes its check unchanged (R193). -/
theorem checkLine_sound (p : Part) {n : Nat} (h : (p.line n).damage = none) (b : FoundBy) : p.checkLine n b = p := by
  simp only [Part.checkLine, h]

/-- A single-bit error is corrected in place and offered as LOW (R193). -/
theorem checkLine_single (p : Part) {n : Nat} {syn : BitVec 8} (h : (p.line n).damage = some (.single syn)) (b : FoundBy) :
    p.checkLine n b = (p.setLine n { p.line n with damage := none }).raise
      (.faultOffer { rank := .low, store := .line, index := n, syndrome := syn, foundBy := b }) := by
  simp only [Part.checkLine, h]

/-- The abort of a probe: its record is gone and no line changes (R188). -/
theorem abortProbe_cc (p : Part) (n : Nat) : (p.abortProbe n).cc = p.cc := by
  simp only [Part.abortProbe, Part.placeResult]
  split
  · rfl
  · split <;> rfl

theorem abortProbe_probes (p : Part) (n : Nat) :
    (p.abortProbe n).au.probes = p.au.probes.filter fun r => r.line ≠ n := by
  simp only [Part.abortProbe, Part.placeResult]
  split
  · rfl
  · split <;> rfl

/-! ### The journal -/

/-- One entry is written: at the end, under the next sequence number, stamped with TU's floor time; the dropped mark goes with
an entry that is no TAP_CLOSE (R146, R148). -/
theorem writeEntry_cu (p : Part) (e : JEntry) :
    (p.writeEntry e).cu = { p.cu with
      journal := p.cu.journal ++
        [{ e with seq := p.cu.seq, time := p.tu.floorTime, gap := if e.kind = .tapClose then e.gap else p.cu.dropped }]
      seq := (p.cu.seq + 1) % 2 ^ 32
      dropped := if e.kind = .tapClose then p.cu.dropped else false } :=
  setCause_cu _ _ _

/-- Writing an entry touches CU, the conditions and the event's notices only. -/
theorem writeEntry_keeps (p : Part) (e : JEntry) :
    p.writeEntry e = { p with cu := (p.writeEntry e).cu, conds := (p.writeEntry e).conds,
                              outbox := (p.writeEntry e).outbox } := by
  rw [writeEntry_cu]
  exact setCause_keeps _ _ _

/-- A journal-wide entry is written while there is room beyond the claims, and otherwise sets the dropped mark (R148). -/
theorem writeWide_cases (p : Part) (e : JEntry) :
    (p.cu.claimed < p.cu.free ∧ p.writeWide e = p.writeEntry e)
      ∨ (p.cu.free ≤ p.cu.claimed ∧ p.writeWide e = { p with cu := { p.cu with dropped := true } }) := by
  simp only [Part.writeWide, CU.roomy, decide_eq_true_eq]
  split
  · rename_i h; exact .inl ⟨h, rfl⟩
  · rename_i h; exact .inr ⟨Nat.le_of_not_lt h, rfl⟩

/-- A join or leave of a tap is written while there is room beyond the claims, and otherwise sets the tap's gap flag (R148).
-/
theorem writeTapLine_cases (p : Part) (k : JKind) {c : Nat} (n : Nat) {t : Tap} (h : vget p.cu.taps c none = some t) :
    (p.cu.claimed < p.cu.free ∧ p.writeTapLine k c n = p.writeEntry (tapEntry k c t (some n) none))
      ∨ (p.cu.free ≤ p.cu.claimed ∧ p.writeTapLine k c n = p.modTap c fun t => { t with gap := true }) := by
  simp only [Part.writeTapLine, h, CU.roomy, decide_eq_true_eq]
  split
  · rename_i h; exact .inl ⟨h, rfl⟩
  · rename_i h; exact .inr ⟨Nat.le_of_not_lt h, rfl⟩

/-- CU alone, the conditions and the event's notices differ. -/
def OnlyCU (p q : Part) : Prop := q = { p with cu := q.cu, conds := q.conds, outbox := q.outbox }

theorem OnlyCU.refl (p : Part) : OnlyCU p p := rfl

theorem OnlyCU.trans {p q r : Part} (h : OnlyCU p q) (k : OnlyCU q r) : OnlyCU p r := by
  unfold OnlyCU at *
  rw [k, h]

theorem writeTapLine_onlyCU (p : Part) (k : JKind) (c n : Nat) : OnlyCU p (p.writeTapLine k c n) := by
  simp only [Part.writeTapLine]
  split
  · rfl
  · split
    · exact writeEntry_keeps _ _
    · rfl

theorem cuLeave_onlyCU (p : Part) (n : Nat) (reason : CloseCause) (o : Occupant) : OnlyCU p (p.cuLeave n reason o) := by
  have main : ∀ c, OnlyCU p (
      let p1 := p.writeTapLine .lineLeave c n
      if ((p1.position o.1).linesOf o.2).isEmpty then
        match vget p1.cu.taps c none with
        | none => p1
        | some t =>
          let p2 := p1.writeEntry (tapEntry .tapClose c t none (some reason))
          { p2 with cu := { p2.cu with taps := vset p2.cu.taps c none } }
      else p1) := by
    intro c
    have h1 := writeTapLine_onlyCU p .lineLeave c n
    simp only
    split
    · split
      · exact h1
      · refine h1.trans ((?_ : OnlyCU _ _).trans rfl)
        exact writeEntry_keeps _ _
    · exact h1
  unfold Part.cuLeave
  split
  · rfl
  all_goals
    split
    · rfl
    · exact main _

/-- CU takes the leaves of one event: no other block changes, but for the conditions and the event's notices (R153). -/
theorem cuLeaves_onlyCU (reason : CloseCause) (who : List (Nat × Occupant)) (p : Part) :
    OnlyCU p (cuLeaves reason who p) := by
  induction who generalizing p with
  | nil => rfl
  | cons x rest ih =>
    obtain ⟨n, o⟩ := x
    refine OnlyCU.trans ?_ (ih _)
    split
    · unfold Part.cuLeaveLine
      split
      · rfl
      all_goals
        split
        · rfl
        · exact writeTapLine_onlyCU _ _ _ _
    · exact cuLeave_onlyCU _ _ _ _

/-- CU's answer is positive exactly when a channel is free and two entries are (R149). -/
theorem ask_positive {c : CU} {pos ch : Nat} {d : Dev} (h : c.ask pos d = .positive ch pos d) :
    vget c.taps ch none = none ∧ ch < 32 ∧ c.claimed + 2 ≤ c.free := by
  simp only [CU.ask] at h
  split at h
  · cases h
  · rename_i ch' hf
    split at h
    · cases h
    · rename_i hr
      injection h with h1
      subst h1
      have hm := List.mem_of_find?_eq_some hf
      have hp := List.find?_some hf
      exact ⟨by simpa using hp, List.mem_range.mp hm, Nat.le_of_not_lt hr⟩

end Sys2Proof.Machine
end

