-- ==== Sys2Proof/Laws/Link.lean ====
section
/-! SUPPORT. The queues and the transmitter: what pumping, queueing a notice and placing a reply can do to the link, and that a
reply placed or a notice queued stays there to the end of the step. -/

namespace Sys2Proof.Machine

open Sys2Proof

/-! ### Pumping -/

/-- The transmitter stays as it is, or takes the oldest reply, or takes the oldest notice. -/
theorem pump_cases (l : Link) :
    l.pump = l
      ∨ (∃ t k r i rest, l.tx = none ∧ l.replies = { tag := t, kind := k, answer := some (r, i) } :: rest
          ∧ l.pump = { l with replies := rest, tx := some (.reply t k r i) })
      ∨ ∃ n rest, l.tx = none ∧ l.notices = n :: rest ∧ l.pump = { l with notices := rest, tx := some (.notice n) } := by
  unfold Link.pump
  split
  · exact .inl rfl
  · rename_i hbusy
    have htx : l.tx = none := by
      cases h : l.tx with
      | none => rfl
      | some x => simp [h] at hbusy
    split
    · rename_i t k r i rest hr
      exact .inr (.inl ⟨t, k, r, i, rest, htx, hr, rfl⟩)
    · split
      · rename_i n rest hn
        exact .inr (.inr ⟨n, rest, htx, hn, rfl⟩)
      · exact .inl rfl

@[simp] theorem pump_still (l : Link) : l.pump.still = l.still := by
  rcases pump_cases l with h | ⟨_, _, _, _, _, _, _, h⟩ | ⟨_, _, _, _, h⟩ <;> rw [h] <;> rfl

@[simp] theorem pump_serial (l : Link) : l.pump.serial = l.serial := by
  rcases pump_cases l with h | ⟨_, _, _, _, _, _, _, h⟩ | ⟨_, _, _, _, h⟩ <;> rw [h]

@[simp] theorem pump_noticesLost (l : Link) : l.pump.noticesLost = l.noticesLost := by
  rcases pump_cases l with h | ⟨_, _, _, _, _, _, _, h⟩ | ⟨_, _, _, _, h⟩ <;> rw [h]

theorem pump_replies_le (l : Link) : l.pump.replies.length ≤ l.replies.length := by
  rcases pump_cases l with h | ⟨_, _, _, _, _, _, hr, h⟩ | ⟨_, _, _, _, h⟩ <;> rw [h] <;> simp [*]

theorem pump_notices_le (l : Link) : l.pump.notices.length ≤ l.notices.length := by
  rcases pump_cases l with h | ⟨_, _, _, _, _, _, _, h⟩ | ⟨_, _, _, hn, h⟩ <;> rw [h] <;> simp [*]

/-! ### Notices -/

@[simp] theorem queueNotice_still (now : Nat) (l : Link) (n : Notice) : (l.queueNotice now n).still = l.still := by
  unfold Link.queueNotice
  split
  · rfl
  · rw [pump_still]; rfl

theorem queueNotice_serial (now : Nat) (l : Link) (n : Notice) :
    (l.queueNotice now n).serial = (l.serial + 1) % 256 := by
  unfold Link.queueNotice
  split
  · rfl
  · rw [pump_serial]

theorem queueNotice_replies_le (now : Nat) (l : Link) (n : Notice) :
    (l.queueNotice now n).replies.length ≤ l.replies.length := by
  unfold Link.queueNotice
  split
  · exact Nat.le_refl _
  · exact pump_replies_le _

theorem queueNotice_notices_le (now : Nat) (l : Link) (n : Notice) (h : l.notices.length ≤ 64) :
    (l.queueNotice now n).notices.length ≤ 64 := by
  unfold Link.queueNotice
  split
  · exact h
  · refine Nat.le_trans (pump_notices_le _) ?_
    simp; omega

theorem queueNotice_notices_grow (now : Nat) (l : Link) (n : Notice) :
    (l.queueNotice now n).notices.length ≤ l.notices.length + 1 := by
  unfold Link.queueNotice
  split
  · exact Nat.le_succ _
  · exact Nat.le_trans (pump_notices_le _) (by simp)

/-- With 64 notices queued a further one is dropped: the serial still advances and notices-lost is set (R201). -/
theorem queueNotice_full (now : Nat) (l : Link) (n : Notice) (h : 64 ≤ l.notices.length) :
    l.queueNotice now n = { l with serial := (l.serial + 1) % 256, noticesLost := true } := by
  simp [Link.queueNotice, h]

/-! ### A reply stays -/

/-- The reply is queued or being sent. -/
def Link.holds (l : Link) (x : Place) (f : TxFrame) : Prop := l.tx = some f ∨ x ∈ l.replies

theorem holds_pump {l : Link} {tag : Nat} {kind : ReplyKind} {r : Result} {i : Info}
    (h : l.holds { tag := tag, kind := kind, answer := some (r, i) } (.reply tag kind r i)) :
    l.pump.holds { tag := tag, kind := kind, answer := some (r, i) } (.reply tag kind r i) := by
  rcases pump_cases l with hp | ⟨t, k, r', i', rest, htx, hr, hp⟩ | ⟨n, rest, htx, hn, hp⟩
  · rw [hp]; exact h
  · rw [hp]
    rcases h with h | h
    · simp [htx] at h
    · rw [hr] at h
      rcases List.mem_cons.mp h with h | h
      · cases h; exact .inl rfl
      · exact .inr h
  · rw [hp]
    rcases h with h | h
    · simp [htx] at h
    · exact .inr h

theorem holds_queueNotice {l : Link} {tag : Nat} {kind : ReplyKind} {r : Result} {i : Info} (now : Nat) (n : Notice)
    (h : l.holds { tag := tag, kind := kind, answer := some (r, i) } (.reply tag kind r i)) :
    (l.queueNotice now n).holds { tag := tag, kind := kind, answer := some (r, i) } (.reply tag kind r i) := by
  unfold Link.queueNotice
  split
  · exact h
  · exact holds_pump h

theorem mem_answerPlace (tag : Nat) (kind : ReplyKind) (a : Result × Info) (ps : List Place)
    (h : ({ tag := tag, kind := kind, answer := none } : Place) ∈ ps) :
    ({ tag := tag, kind := kind, answer := some a } : Place) ∈ answerPlace tag kind a ps := by
  induction ps with
  | nil => cases h
  | cons p rest ih =>
    unfold answerPlace
    split
    · rename_i hp
      obtain ⟨rfl, rfl, _⟩ := hp
      exact List.mem_cons_self
    · rename_i hp
      rcases List.mem_cons.mp h with h | h
      · subst h; simp at hp
      · exact List.mem_cons_of_mem _ (ih h)

@[simp] theorem answerPlace_length (tag : Nat) (kind : ReplyKind) (a : Result × Info) (ps : List Place) :
    (answerPlace tag kind a ps).length = ps.length := by
  induction ps with
  | nil => rfl
  | cons p rest ih => unfold answerPlace; split <;> simp [ih]

/-- A frame that goes no further is answered in its own place, behind every place held before (R199). -/
theorem replyAtOnce_holds (l : Link) (tag : Nat) (kind : ReplyKind) (r : Result) (i : Info) :
    (l.replyAtOnce tag kind r i).holds { tag := tag, kind := kind, answer := some (r, i) } (.reply tag kind r i) :=
  holds_pump (.inr (List.mem_append_right _ List.mem_cons_self))

@[simp] theorem replyAtOnce_still (l : Link) (tag : Nat) (kind : ReplyKind) (r : Result) (i : Info) :
    (l.replyAtOnce tag kind r i).still = l.still := by
  rw [Link.replyAtOnce, pump_still]; rfl

@[simp] theorem replyAtOnce_serial (l : Link) (tag : Nat) (kind : ReplyKind) (r : Result) (i : Info) :
    (l.replyAtOnce tag kind r i).serial = l.serial := by
  rw [Link.replyAtOnce, pump_serial]

theorem replyAtOnce_replies_le (l : Link) (tag : Nat) (kind : ReplyKind) (r : Result) (i : Info) :
    (l.replyAtOnce tag kind r i).replies.length ≤ l.replies.length + 1 := by
  refine Nat.le_trans (pump_replies_le _) ?_
  simp

theorem replyAtOnce_notices_le (l : Link) (tag : Nat) (kind : ReplyKind) (r : Result) (i : Info) :
    (l.replyAtOnce tag kind r i).notices.length ≤ l.notices.length := pump_notices_le _

/-- While a frame is being sent the new place only joins the queue (R199, R202). -/
theorem replyAtOnce_busy {l : Link} (h : l.tx.isSome = true) (tag : Nat) (kind : ReplyKind) (r : Result) (i : Info) :
    l.replyAtOnce tag kind r i
      = { l with replies := l.replies ++ [{ tag := tag, kind := kind, answer := some (r, i) }] } := by
  simp [Link.replyAtOnce, Link.pump, h]

/-- A held place that gets its answer is then queued with it, or being sent (R199). -/
theorem answer_holds (l : Link) (tag : Nat) (kind : ReplyKind) (r : Result) (i : Info)
    (h : ({ tag := tag, kind := kind, answer := none } : Place) ∈ l.replies) :
    (l.answer tag kind r i).holds { tag := tag, kind := kind, answer := some (r, i) } (.reply tag kind r i) :=
  holds_pump (.inr (mem_answerPlace _ _ _ _ h))

@[simp] theorem answer_still (l : Link) (tag : Nat) (kind : ReplyKind) (r : Result) (i : Info) :
    (l.answer tag kind r i).still = l.still := by
  rw [Link.answer, pump_still]; rfl

@[simp] theorem answer_serial (l : Link) (tag : Nat) (kind : ReplyKind) (r : Result) (i : Info) :
    (l.answer tag kind r i).serial = l.serial := by
  rw [Link.answer, pump_serial]

theorem answer_replies_le (l : Link) (tag : Nat) (kind : ReplyKind) (r : Result) (i : Info) :
    (l.answer tag kind r i).replies.length ≤ l.replies.length := by
  refine Nat.le_trans (pump_replies_le _) ?_
  simp

theorem answer_notices_le (l : Link) (tag : Nat) (kind : ReplyKind) (r : Result) (i : Info) :
    (l.answer tag kind r i).notices.length ≤ l.notices.length := pump_notices_le _

/-! ### An unanswered place stays -/

theorem unanswered_pump {l : Link} {tag : Nat} {kind : ReplyKind}
    (h : ({ tag := tag, kind := kind, answer := none } : Place) ∈ l.replies) :
    ({ tag := tag, kind := kind, answer := none } : Place) ∈ l.pump.replies := by
  rcases pump_cases l with hp | ⟨t, k, r', i', rest, htx, hr, hp⟩ | ⟨n, rest, htx, hn, hp⟩
  · rw [hp]; exact h
  · rw [hp]
    rw [hr] at h
    rcases List.mem_cons.mp h with h | h
    · cases h
    · exact h
  · rw [hp]; exact h

theorem unanswered_queueNotice {l : Link} {tag : Nat} {kind : ReplyKind} (now : Nat) (n : Notice)
    (h : ({ tag := tag, kind := kind, answer := none } : Place) ∈ l.replies) :
    ({ tag := tag, kind := kind, answer := none } : Place) ∈ (l.queueNotice now n).replies := by
  unfold Link.queueNotice
  split
  · exact h
  · exact unanswered_pump h

/-! ### A notice stays -/

/-- A notice with this content is queued or being sent. -/
def Link.carries (l : Link) (n : Notice) : Prop :=
  (∃ q ∈ l.notices, q.body = n) ∨ ∃ q, l.tx = some (.notice q) ∧ q.body = n

theorem carries_pump {l : Link} {n : Notice} (h : l.carries n) : l.pump.carries n := by
  rcases pump_cases l with hp | ⟨t, k, r', i', rest, htx, hr, hp⟩ | ⟨m, rest, htx, hn, hp⟩
  · rw [hp]; exact h
  · rw [hp]
    rcases h with h | ⟨q, h, _⟩
    · exact .inl h
    · simp [htx] at h
  · rw [hp]
    rcases h with ⟨q, hq, hb⟩ | ⟨q, h, _⟩
    · rw [hn] at hq
      rcases List.mem_cons.mp hq with hq | hq
      · subst hq; exact .inr ⟨q, rfl, hb⟩
      · exact .inl ⟨q, hq, hb⟩
    · simp [htx] at h

theorem carries_queueNotice {l : Link} {n : Notice} (now : Nat) (m : Notice) (h : l.carries n) :
    (l.queueNotice now m).carries n := by
  unfold Link.queueNotice
  split
  · exact h
  · apply carries_pump
    rcases h with ⟨q, hq, hb⟩ | h
    · exact .inl ⟨q, List.mem_append_left _ hq, hb⟩
    · exact .inr h

theorem queueNotice_carries (now : Nat) (l : Link) (n : Notice) (h : l.notices.length < 64) :
    (l.queueNotice now n).carries n := by
  unfold Link.queueNotice
  rw [if_neg (by omega)]
  apply carries_pump
  exact .inl ⟨_, List.mem_append_right _ List.mem_cons_self, rfl⟩

/-! ### Runs of notices -/

section Runs

variable (now : Nat)

@[simp] theorem queueAll_still (l : Link) (ns : List Notice) : (ns.foldl (Link.queueNotice now) l).still = l.still := by
  induction ns generalizing l with
  | nil => rfl
  | cons n rest ih => rw [List.foldl_cons, ih, queueNotice_still]

theorem queueAll_replies_le (l : Link) (ns : List Notice) :
    (ns.foldl (Link.queueNotice now) l).replies.length ≤ l.replies.length := by
  induction ns generalizing l with
  | nil => exact Nat.le_refl _
  | cons n rest ih => exact Nat.le_trans (ih _) (queueNotice_replies_le _ _ _)

theorem queueAll_notices_le (l : Link) (ns : List Notice) (h : l.notices.length ≤ 64) :
    (ns.foldl (Link.queueNotice now) l).notices.length ≤ 64 := by
  induction ns generalizing l with
  | nil => exact h
  | cons n rest ih => exact ih _ (queueNotice_notices_le _ _ _ h)

theorem queueAll_notices_grow (l : Link) (ns : List Notice) :
    (ns.foldl (Link.queueNotice now) l).notices.length ≤ l.notices.length + ns.length := by
  induction ns generalizing l with
  | nil => exact Nat.le_refl _
  | cons n rest ih =>
    have := ih (l.queueNotice now n)
    have := queueNotice_notices_grow now l n
    rw [List.foldl_cons, List.length_cons]
    omega

theorem queueAll_serial_lt (l : Link) (ns : List Notice) (h : l.serial < 256) :
    (ns.foldl (Link.queueNotice now) l).serial < 256 := by
  induction ns generalizing l with
  | nil => exact h
  | cons n rest ih => exact ih _ (by rw [queueNotice_serial]; omega)

theorem holds_queueAll {l : Link} {tag : Nat} {kind : ReplyKind} {r : Result} {i : Info} (ns : List Notice)
    (h : l.holds { tag := tag, kind := kind, answer := some (r, i) } (.reply tag kind r i)) :
    (ns.foldl (Link.queueNotice now) l).holds { tag := tag, kind := kind, answer := some (r, i) }
      (.reply tag kind r i) := by
  induction ns generalizing l with
  | nil => exact h
  | cons n rest ih => exact ih (holds_queueNotice now n h)

theorem unanswered_queueAll {l : Link} {tag : Nat} {kind : ReplyKind} (ns : List Notice)
    (h : ({ tag := tag, kind := kind, answer := none } : Place) ∈ l.replies) :
    ({ tag := tag, kind := kind, answer := none } : Place) ∈ (ns.foldl (Link.queueNotice now) l).replies := by
  induction ns generalizing l with
  | nil => exact h
  | cons n rest ih => exact ih (unanswered_queueNotice now n h)

theorem carries_queueAll {l : Link} {n : Notice} (ns : List Notice) (h : l.carries n) :
    (ns.foldl (Link.queueNotice now) l).carries n := by
  induction ns generalizing l with
  | nil => exact h
  | cons m rest ih => exact ih (carries_queueNotice now m h)

/-- A notice of a run that the queue has room for is queued or sent. -/
theorem queueAll_carries (l : Link) (ns : List Notice) (h : l.notices.length + ns.length ≤ 64) {n : Notice}
    (hn : n ∈ ns) : (ns.foldl (Link.queueNotice now) l).carries n := by
  induction ns generalizing l with
  | nil => cases hn
  | cons m rest ih =>
    rw [List.length_cons] at h
    rw [List.foldl_cons]
    rcases List.mem_cons.mp hn with rfl | hn
    · exact carries_queueAll now _ (queueNotice_carries now l n (by omega))
    · have := queueNotice_notices_grow now l m
      exact ih _ (by omega) hn

end Runs

end Sys2Proof.Machine
end

