-- ==== Sys2Proof/Laws/Ops.lean ====
section
/-! SUPPORT. The two shapes of a step: what the end of an event and the answer to a command leave of the part, and what a
command that is taken comes to. -/

namespace Sys2Proof.Machine

open Sys2Proof

/-! ### The end of an event -/

section Flush

variable (s : State)

@[simp] theorem flushEarly_part : s.flushEarly.part = { s.part with early := [] } := rfl
@[simp] theorem flushEarly_pending : s.flushEarly.pending = s.pending := rfl
@[simp] theorem flushOutbox_part : s.flushOutbox.part = { s.part with outbox := [] } := rfl
@[simp] theorem flushOutbox_pending : s.flushOutbox.pending = s.pending := rfl

/-- One waiting result: nothing happens, or its notice is queued, or a slot without one drops off the list. -/
theorem flushOp_cases :
    s.flushOp = s
      ∨ (∃ i rest sl, s.part.opsDone = i :: rest
          ∧ s.flushOp = { s with part := { s.part with ops := vset s.part.ops i sl, opsDone := rest } })
      ∨ ∃ i rest n, s.part.opsDone = i :: rest ∧ s.link.notices.length < 64
          ∧ s.flushOp = { s with part := { s.part with ops := vset s.part.ops i none, opsDone := rest },
                                 link := s.link.queueNotice s.part.tu.floorTime n } := by
  unfold State.flushOp
  split
  · exact .inl rfl
  · rename_i i rest hd
    split
    · exact .inl rfl
    · rename_i hroom
      split
      · exact .inr (.inr ⟨i, rest, _, hd, by omega, rfl⟩)
      · exact .inr (.inl ⟨i, rest, vget s.part.ops i none, hd, by rw [vset_vget_self]⟩)
      · exact .inr (.inl ⟨i, rest, vget s.part.ops i none, hd, by rw [vset_vget_self]⟩)

theorem flushOp_idle (h : s.part.opsDone = []) : s.flushOp = s := by
  unfold State.flushOp
  rw [h]

theorem flushOps_idle (h : s.part.opsDone = []) : s.flushOps = s := by
  have h1 := flushOp_idle s h
  unfold State.flushOps
  rw [h1, h1, h1, h1]

/-- What one waiting result leaves alone, and what it keeps. -/
theorem flushOp_keeps :
    s.flushOp.part.blocks = s.part.blocks ∧ s.flushOp.part.events = s.part.events
      ∧ s.flushOp.part.early = s.part.early ∧ s.flushOp.part.outbox = s.part.outbox
      ∧ s.flushOp.link.still = s.link.still ∧ s.flushOp.pending = s.pending := by
  rcases flushOp_cases s with h | ⟨i, rest, sl, _, h⟩ | ⟨i, rest, n, _, _, h⟩ <;> rw [h] <;>
    simp [Part.blocks]

theorem flushOps_keeps :
    s.flushOps.part.blocks = s.part.blocks ∧ s.flushOps.part.events = s.part.events
      ∧ s.flushOps.part.early = s.part.early ∧ s.flushOps.part.outbox = s.part.outbox
      ∧ s.flushOps.link.still = s.link.still ∧ s.flushOps.pending = s.pending := by
  have h1 := flushOp_keeps s
  have h2 := flushOp_keeps s.flushOp
  have h3 := flushOp_keeps s.flushOp.flushOp
  have h4 := flushOp_keeps s.flushOp.flushOp.flushOp
  refine ⟨?_, ?_, ?_, ?_, ?_, ?_⟩
  · exact h4.1.trans (h3.1.trans (h2.1.trans h1.1))
  · exact h4.2.1.trans (h3.2.1.trans (h2.2.1.trans h1.2.1))
  · exact h4.2.2.1.trans (h3.2.2.1.trans (h2.2.2.1.trans h1.2.2.1))
  · exact h4.2.2.2.1.trans (h3.2.2.2.1.trans (h2.2.2.2.1.trans h1.2.2.2.1))
  · exact h4.2.2.2.2.1.trans (h3.2.2.2.2.1.trans (h2.2.2.2.2.1.trans h1.2.2.2.2.1))
  · exact h4.2.2.2.2.2.trans (h3.2.2.2.2.2.trans (h2.2.2.2.2.2.trans h1.2.2.2.2.2))

end Flush

/-! ### Reply and notices through the results of long operations -/

theorem replied_flushOp {s : State} {tag : Nat} {cmd : Cmd} {r : Result} {i : Info} (h : Replied s tag cmd r i) :
    Replied s.flushOp tag cmd r i := by
  rcases flushOp_cases s with e | ⟨_, _, _, _, e⟩ | ⟨_, _, n, _, _, e⟩
  · rw [e]; exact h
  · rw [e]; exact h
  · rw [e]; exact holds_queueNotice _ n h

theorem replied_flushOps {s : State} {tag : Nat} {cmd : Cmd} {r : Result} {i : Info} (h : Replied s tag cmd r i) :
    Replied s.flushOps tag cmd r i :=
  replied_flushOp (replied_flushOp (replied_flushOp (replied_flushOp h)))

theorem told_flushOp {s : State} {n : Notice} (h : Told s n) : Told s.flushOp n := by
  rcases flushOp_cases s with e | ⟨_, _, _, _, e⟩ | ⟨_, _, m, _, _, e⟩
  · rw [e]; exact h
  · rw [e]; exact h
  · rw [e]; exact carries_queueNotice _ m h

theorem told_flushOps {s : State} {n : Notice} (h : Told s n) : Told s.flushOps n :=
  told_flushOp (told_flushOp (told_flushOp (told_flushOp h)))

/-! ### Events -/

/-- What the end of an event leaves: everything of the part but CP's own lists, and nothing of the link but its queues. -/
theorem finish_leaves (s : State) : Leaves s s.finish s.part := by
  have h := flushOps_keeps s.flushEarly.flushOutbox
  refine ⟨?_, ?_, ?_, ?_, ?_⟩
  · exact h.1
  · exact h.2.1
  · intro hd
    have : s.finish = s.flushEarly.flushOutbox := flushOps_idle _ (by simpa using hd)
    rw [this]; exact ⟨rfl, hd⟩
  · rw [State.finish, h.2.2.2.2.1]
    simp [State.flushOutbox, State.flushEarly, State.sendNotices]
  · exact h.2.2.2.2.2

/-- An event whose notices have room is told of each of them. -/
theorem finish_told (s : State) {n : Notice} (hn : n ∈ s.part.outbox)
    (h : s.link.notices.length + s.part.early.length + s.part.outbox.length ≤ 64) : Told s.finish n := by
  apply told_flushOps
  have hg := queueAll_notices_grow s.part.tu.floorTime s.link s.part.early
  exact queueAll_carries _ _ _ (by simp [State.flushEarly, State.sendNotices] at *; omega) hn

theorem finish_told_early (s : State) {n : Notice} (hn : n ∈ s.part.early)
    (h : s.link.notices.length + s.part.early.length ≤ 64) : Told s.finish n := by
  apply told_flushOps
  exact carries_queueAll _ _ (queueAll_carries _ _ _ h hn)

theorem took_opsDone' (p : Part) (c : Instr) : (p.took c).opsDone = p.opsDone := rfl

/-- An event leaves the part as its body made it. -/
theorem eventRun_leaves (c : Instr) (body : Part → Part) (s : State) :
    Leaves s (eventRun c body s) (body (s.part.took c)) :=
  finish_leaves { s with part := body (s.part.took c) }

theorem eventRun_told (c : Instr) (body : Part → Part) (s : State) {n : Notice}
    (hn : n ∈ (body (s.part.took c)).outbox)
    (h : s.link.notices.length + (body (s.part.took c)).early.length + (body (s.part.took c)).outbox.length ≤ 64) :
    Told (eventRun c body s) n :=
  finish_told { s with part := body (s.part.took c) } hn h

/-! ### Commands -/

/-- A command that is taken comes to its owner's body, in the state in which its place is held. -/
theorem hostRun_takes {c : Instr} {s : State} (h : s.takes c = true) (body : Link → Part → Answered)
    (after : Link → Link) :
    ∃ tag cmd, c.host? = some (tag, cmd) ∧ hostRun c body after s = (s.handed c).runOwner tag cmd body after
      ∧ (s.handed c).part = s.part.took c
      ∧ ({ tag := tag, kind := .cmd cmd, answer := none } : Place) ∈ (s.handed c).link.replies := by
  unfold State.takes at h
  split at h
  · simp at h
  · rename_i tag cmd hc
    refine ⟨tag, cmd, hc, ?_⟩
    by_cases hev : c ∈ s.part.events
    · rw [if_pos hev] at h
      simp only [Bool.and_eq_true, Bool.not_eq_true', List.contains_iff_mem] at h
      have hh : s.handed c = { s with part := s.part.took c } := by simp [State.handed, hc, hev]
      refine ⟨?_, ?_, ?_⟩
      · rw [hh]; simp only [hostRun, hc, if_pos hev, h.1]; rfl
      · rw [hh]
      · rw [hh]; exact h.2
    · rw [if_neg hev] at h
      simp only [Bool.and_eq_true, Bool.not_eq_true', decide_eq_true_eq, beq_iff_eq, bne_iff_ne] at h
      obtain ⟨⟨⟨⟨⟨hp, hb⟩, hl⟩, ht⟩, hf⟩, ho⟩ := h
      have ho' : ¬(cmd ≠ .restart ∧ ownerWaiting cmd.owner s.part.events = true) := by
        rintro ⟨h1, h2⟩
        simp [h1, h2] at ho
      have hh : s.handed c = { s with link := s.link.holdPlace tag (.cmd cmd) } := by simp [State.handed, hc, hev]
      refine ⟨?_, ?_, ?_⟩
      · rw [hh]
        simp [hostRun, hc, hev, hp, hb, Nat.not_le.mpr hl, ht, hf, if_neg ho']
      · rw [hh]
        simp [Part.took, List.erase_of_not_mem hev]
      · rw [hh]
        simp [Link.holdPlace]

@[simp] theorem handed_still (s : State) (c : Instr) : (s.handed c).link.still = s.link.still := by
  unfold State.handed
  split
  · rfl
  · split <;> rfl

@[simp] theorem handed_pending (s : State) (c : Instr) : (s.handed c).pending = s.pending := by
  unfold State.handed
  split
  · rfl
  · split <;> rfl

@[simp] theorem handed_notices (s : State) (c : Instr) : (s.handed c).link.notices = s.link.notices := by
  unfold State.handed
  split
  · rfl
  · split <;> rfl

/-- What the answer to a command leaves. -/
theorem conclude_leaves (s : State) (tag : Nat) (cmd : Cmd) (a : Answered) (after : Link → Link)
    (hafter : ∀ l, (after l).still = l.still) : Leaves s (s.conclude tag cmd a after) a.part := by
  let s2 : State := { State.flushEarly { s with part := a.part } with
    link := (after (State.flushEarly { s with part := a.part }).link).answer tag (.cmd cmd) a.result a.info }
  show Leaves s s2.flushOutbox.flushOps a.part
  have h := flushOps_keeps s2.flushOutbox
  have hstill : s2.flushOutbox.link.still = s.link.still := by
    simp [s2, State.flushOutbox, State.sendNotices, State.flushEarly, hafter]
  refine ⟨h.1, h.2.1, ?_, h.2.2.2.2.1.trans hstill, h.2.2.2.2.2⟩
  intro hd
  have : s2.flushOutbox.flushOps = s2.flushOutbox := flushOps_idle _ hd
  rw [this]; exact ⟨rfl, hd⟩

/-- The reply to a command is queued or sent, when its place is held and CP's own part of it touches no reply. -/
theorem conclude_replied (s : State) (tag : Nat) (cmd : Cmd) (a : Answered) (after : Link → Link)
    (hafter : ∀ l, (after l).replies = l.replies)
    (h : ({ tag := tag, kind := .cmd cmd, answer := none } : Place) ∈ s.link.replies) :
    Replied (s.conclude tag cmd a after) tag cmd a.result a.info := by
  apply replied_flushOps
  apply holds_queueAll
  apply answer_holds
  rw [hafter]
  exact unanswered_queueAll _ _ h

/-- A notice that follows the reply is queued or sent when the queue has room. -/
theorem conclude_told (s : State) (tag : Nat) (cmd : Cmd) (a : Answered) (after : Link → Link)
    (hafter : ∀ l, (after l).notices = l.notices) {n : Notice} (hn : n ∈ a.part.outbox)
    (h : s.link.notices.length + a.part.early.length + a.part.outbox.length ≤ 64) :
    Told (s.conclude tag cmd a after) n := by
  apply told_flushOps
  apply queueAll_carries _ _ _ _ hn
  have hg := queueAll_notices_grow a.part.tu.floorTime s.link a.part.early
  have ha := answer_notices_le (after (State.flushEarly { s with part := a.part }).link) tag (.cmd cmd) a.result a.info
  rw [hafter] at ha
  simp only [State.flushEarly, State.sendNotices] at ha ⊢
  exact Nat.le_trans (Nat.add_le_add_right (Nat.le_trans ha hg) _) h

/-- A command without an effect on the link, taken: the part as its body made it, and the reply. -/
theorem commandRun_takes {c : Instr} {s : State} {tag : Nat} {cmd : Cmd} (hc : c.host? = some (tag, cmd))
    (h : s.takes c = true) (body : Part → Answered) :
    Leaves s (commandRun c body s) (body (s.part.took c)).part
      ∧ Replied (commandRun c body s) tag cmd (body (s.part.took c)).result (body (s.part.took c)).info := by
  obtain ⟨t, k, hc', hrun, hpart, hplace⟩ := hostRun_takes h (fun _ p => body p) id
  rw [hc] at hc'
  cases hc'
  have e : commandRun c body s = (s.handed c).conclude tag cmd (body (s.part.took c)) id := by
    rw [commandRun, hrun, State.runOwner, hpart]
  rw [e]
  refine ⟨?_, conclude_replied _ _ _ _ _ (fun _ => rfl) hplace⟩
  have hl := conclude_leaves (s.handed c) tag cmd (body (s.part.took c)) id (fun _ => rfl)
  obtain ⟨h1, h2, h3, h4, h5⟩ := hl
  exact ⟨h1, h2, h3, h4.trans (handed_still s c), h5.trans (handed_pending s c)⟩

theorem commandRun_told {c : Instr} {s : State} {tag : Nat} {cmd : Cmd} (hc : c.host? = some (tag, cmd))
    (h : s.takes c = true) (body : Part → Answered) {n : Notice} (hn : n ∈ (body (s.part.took c)).part.outbox)
    (hroom : s.link.notices.length + (body (s.part.took c)).part.early.length
      + (body (s.part.took c)).part.outbox.length ≤ 64) : Told (commandRun c body s) n := by
  obtain ⟨t, k, hc', hrun, hpart, _⟩ := hostRun_takes h (fun _ p => body p) id
  rw [hc] at hc'
  cases hc'
  have e : commandRun c body s = (s.handed c).conclude tag cmd (body (s.part.took c)) id := by
    rw [commandRun, hrun, State.runOwner, hpart]
  rw [e]
  exact conclude_told _ _ _ _ _ (fun _ => rfl) hn (by rw [handed_notices]; exact hroom)

/-- Every run of a command either ends at once with only the link changed or one command more waiting, or is its owner's. -/
theorem hostRun_cases (c : Instr) (body : Link → Part → Answered) (after : Link → Link) (s : State) :
    hostRun c body after s = s
      ∨ (∃ l, hostRun c body after s = { s with link := l }
          ∧ (l = { s.link with overruns := min 65535 (s.link.overruns + 1) }
            ∨ ∃ tag cmd, s.link.replies.length < 8
                ∧ l = s.link.replyAtOnce tag (.cmd cmd) .badFormat .none))
      ∨ (∃ tag cmd, s.link.replies.length < 8
          ∧ hostRun c body after s = { s with link := s.link.holdPlace tag (.cmd cmd), part := s.part.raise c })
      ∨ (∃ tag cmd, c.host? = some (tag, cmd)
          ∧ ((c ∈ s.part.events ∧ hostRun c body after s
                = State.runOwner { s with part := s.part.took c } tag cmd body after)
            ∨ (s.link.replies.length < 8 ∧ s.link.phase = .running ∧ hostRun c body after s
                = State.runOwner { s with link := s.link.holdPlace tag (.cmd cmd) } tag cmd body after))) := by
  unfold hostRun
  split
  · exact .inl rfl
  · rename_i tag cmd hc
    split
    · rename_i hev
      split
      · exact .inl rfl
      · exact .inr (.inr (.inr ⟨tag, cmd, hc, .inl ⟨hev, rfl⟩⟩))
    · split
      · exact .inl rfl
      · rename_i hph
        split
        · exact .inr (.inl ⟨_, rfl, .inl rfl⟩)
        · rename_i hroom
          simp only
          split
          · exact .inr (.inl ⟨_, rfl, .inr ⟨tag, cmd, by omega, rfl⟩⟩)
          · split
            · exact .inr (.inr (.inl ⟨tag, cmd, by omega, rfl⟩))
            · exact .inr (.inr (.inr ⟨tag, cmd, hc, .inr ⟨by omega, (by simpa using hph : _ ∧ _).1, rfl⟩⟩))

end Sys2Proof.Machine
end

