-- ==== Sys2Proof/Laws/Frames.lean ====
section
/-! SUPPORT. The KIND codes of the commands (R208), the fields of a sent frame, what a cue player's and a highway's unfinished
frame leave alone, what TU hands over, and what a start leaves alone. -/

namespace Sys2Proof.Machine

open Sys2Proof

/-! ### KIND codes -/

/-- Every command takes one code, in order. -/
@[simp] theorem assignKinds_fst (cs : List Cmd) (left : List Nat) : (assignKinds cs left).map Prod.fst = cs := by
  induction cs generalizing left with
  | nil => rfl
  | cons c cs ih => simp [assignKinds, ih]

/-- A code that is still unused is found while there is one. -/
theorem getD_mod_mem {left : List Nat} (h : left ≠ []) (n : Nat) : left.getD (n % left.length) 0 ∈ left := by
  have hl : n % left.length < left.length := Nat.mod_lt _ (List.length_pos_iff.mpr h)
  rw [List.getD_eq_getElem?_getD, List.getElem?_eq_getElem hl]
  exact List.getElem_mem hl

theorem length_le_filter_ne {left : List Nat} (h : left.Nodup) (k : Nat) :
    left.length ≤ (left.filter (· ≠ k)).length + 1 := by
  induction left with
  | nil => exact Nat.zero_le _
  | cons x xs ih =>
    rw [List.nodup_cons] at h
    have := ih h.2
    by_cases hx : x = k
    · subst hx
      have : xs.filter (· ≠ x) = xs := List.filter_eq_self.mpr fun y hy => by
        have : y ≠ x := fun e => h.1 (e ▸ hy)
        simpa using this
      exact Nat.le_of_eq (by rw [List.filter_cons_of_neg (by simp), this, List.length_cons])
    · rw [List.filter_cons_of_pos (by simpa using hx), List.length_cons, List.length_cons]
      omega

/-- The codes are among those offered, and no two are alike. -/
theorem assignKinds_snd (cs : List Cmd) (left : List Nat) (hn : left.Nodup) (hl : cs.length ≤ left.length) :
    (∀ x ∈ assignKinds cs left, x.2 ∈ left) ∧ ((assignKinds cs left).map Prod.snd).Nodup := by
  induction cs generalizing left with
  | nil => simp [assignKinds]
  | cons c cs ih =>
    have hne : left ≠ [] := by intro e; simp [e] at hl
    have hk := getD_mod_mem hne (Config.kindChoice c)
    have hlen := length_le_filter_ne hn (left.getD (Config.kindChoice c % left.length) 0)
    rw [List.length_cons] at hl
    obtain ⟨h1, h2⟩ := ih (left.filter (· ≠ left.getD (Config.kindChoice c % left.length) 0)) (hn.filter _) (by omega)
    refine ⟨?_, ?_⟩
    · intro x hx
      rcases List.mem_cons.mp hx with rfl | hx
      · exact hk
      · exact (List.mem_filter.mp (h1 x hx)).1
    · simp only [assignKinds, List.map_cons, List.nodup_cons, List.mem_map]
      refine ⟨?_, h2⟩
      rintro ⟨x, hx, he⟩
      have := (List.mem_filter.mp (h1 x hx)).2
      simp [he] at this

/-- The table gives every command one KIND within 0x01 to 0x5F, no two alike (R208). -/
theorem kindTable_spec :
    kindTable.map Prod.fst = allCmds ∧ (∀ x ∈ kindTable, 1 ≤ x.2 ∧ x.2 ≤ 0x5F) ∧ (kindTable.map Prod.snd).Nodup := by
  have h := assignKinds_snd allCmds ((List.range 95).map (· + 1)) (by decide +kernel) (by decide +kernel)
  refine ⟨assignKinds_fst _ _, ?_, h.2⟩
  intro x hx
  have := h.1 x hx
  simp only [List.mem_map, List.mem_range] at this
  omega

/-! ### Payloads -/

/-- Bytes carry the number they were made of, as far as they hold it (R208). -/
theorem natBE_bytesBE (k n : Nat) : natBE (bytesBE k n) = n % 256 ^ k := by
  have key : ∀ k a, (bytesBE k n).foldl (fun n (b : Byte) => 256 * n + b.toNat) a = a * 256 ^ k + n % 256 ^ k := by
    intro k
    induction k with
    | zero => intro a; simp [bytesBE, Nat.mod_one]
    | succ k ih =>
      intro a
      have ht : (BitVec.ofNat 8 (n / 256 ^ k)).toNat = n / 256 ^ k % 256 := by rw [BitVec.toNat_ofNat]
      have hp : 256 ^ (k + 1) = 256 ^ k * 256 := by rw [Nat.pow_succ]
      have hd : n % (256 ^ k * 256) = n % 256 ^ k + 256 ^ k * (n / 256 ^ k % 256) := Nat.mod_mul
      rw [bytesBE, List.foldl_cons, ih, ht, hp, hd, Nat.add_mul, Nat.mul_comm 256 a, Nat.mul_assoc,
        Nat.mul_comm 256 (256 ^ k), Nat.mul_comm (n / 256 ^ k % 256)]
      omega
  exact (key k 0).trans (by rw [Nat.zero_mul, Nat.zero_add])

@[simp] theorem bytesBE_length (k n : Nat) : (bytesBE k n).length = k := by
  induction k with
  | zero => rfl
  | succ k ih => simp [bytesBE, ih]

/-- What a payload carries is the command of its KIND under the frame's TAG. -/
theorem carried_host {c : Cmd} {tag : Nat} {payload : List Byte} {i : Instr} (h : carried c tag payload = some i) :
    i.host? = some (tag, c) := by
  cases c <;> simp only [carried] at h
  case speakerTalk => split at h <;> cases h <;> rfl
  case groupTalk => split at h <;> cases h <;> rfl
  all_goals cases h; rfl

/-- A frame is refused for its length, or for a press or release choice out of its range, or carries its KIND's command
(R199). -/
theorem readFrame_cases (c : Cmd) (tag : Nat) (payload : List Byte) :
    (payloadFits c (listLength c payload) payload.length = false ∧ readFrame c tag payload = .badLength)
      ∨ (payloadFits c (listLength c payload) payload.length = true ∧ (c = .speakerTalk ∨ c = .groupTalk)
        ∧ readFrame c tag payload = .badChoice)
      ∨ (payloadFits c (listLength c payload) payload.length = true ∧ ∃ i, carried c tag payload = some i
        ∧ i.host? = some (tag, c) ∧ readFrame c tag payload = .command i) := by
  unfold readFrame
  cases hf : payloadFits c (listLength c payload) payload.length
  · exact .inl ⟨rfl, rfl⟩
  · rw [if_neg (by simp)]
    cases hc : carried c tag payload with
    | none =>
      refine .inr (.inl ⟨rfl, ?_, rfl⟩)
      cases c <;> simp only [carried] at hc <;> first | exact .inl rfl | exact .inr rfl | cases hc
    | some i => exact .inr (.inr ⟨rfl, i, rfl, carried_host hc, rfl⟩)

/-- The commands without arguments (R20, R195, R205, R206). -/
theorem readFrame_bare {c : Cmd} {tag : Nat} {i : Instr} (h : c ∈ [Cmd.digest, .readFault, .clearFault, .status, .restart])
    (hi : i.host? = some (tag, c)) (payload : List Byte) :
    readFrame c tag payload = if payload = [] then .command i else .badLength := by
  have hw : carried c tag payload = some i ∧ payloadFits c (listLength c payload) payload.length = (payload.length == 0) := by
    simp only [List.mem_cons, List.not_mem_nil, or_false] at h
    rcases h with rfl | rfl | rfl | rfl | rfl <;>
      refine ⟨?_, rfl⟩ <;> cases i <;> simp only [Instr.host?] at hi <;> cases hi <;> rfl
  unfold readFrame
  rw [hw.1, hw.2]
  cases payload <;> rfl

/-- A SET_TIME is the 6 bytes of its floor time (R167, R208). -/
theorem readFrame_setTime (tag : Nat) (x : BitVec 48) :
    readFrame .setTime tag (bytesBE 6 x.toNat) = .command (.setTime tag x) := by
  have h : BitVec.ofNat 48 (natBE (bytesBE 6 x.toNat)) = x := by
    rw [natBE_bytesBE, Nat.mod_eq_of_lt (Nat.lt_of_lt_of_le x.isLt (by decide)), BitVec.ofNat_toNat, BitVec.setWidth_eq]
  simp [readFrame, payloadFits, carried, h]

/-! ### Fields of a sent frame -/

/-- The fields leave room for the rest of the payload within LEN (R208). -/
theorem fields_length (f : TxFrame) :
    f.fields.length ≤ match f with
      | .reply _ _ _ _ => 247
      | .notice _ => 241 := by
  cases f <;> simp only [TxFrame.fields, fieldBytes, List.length_take] <;> omega

/-- Every field of a given form stands in the bytes woven of them. -/
theorem weave_mem (free : Nat → List Byte) {xs : List (List Byte)} {x : List Byte} (h : x ∈ xs) (room k : Nat) :
    ∃ a b, weave free room k xs = a ++ x ++ b := by
  induction xs generalizing room k with
  | nil => cases h
  | cons y ys ih =>
    rcases List.mem_cons.mp h with rfl | h
    · exact ⟨_, _, rfl⟩
    · obtain ⟨a, b, e⟩ := ih h (room - ((free k).take room).length) (k + 1)
      exact ⟨(free k).take room ++ y ++ a, b, by rw [weave, e]; simp only [List.append_assoc]⟩

/-- The free bytes between the fields take at most the room given. -/
theorem weave_length (free : Nat → List Byte) (xs : List (List Byte)) (room k : Nat) :
    (weave free room k xs).length ≤ room + xs.flatten.length := by
  induction xs generalizing room k with
  | nil => simp only [weave, List.length_take]; omega
  | cons y ys ih =>
    have := ih (room - ((free k).take room).length) (k + 1)
    have : ((free k).take room).length ≤ room := by simp only [List.length_take]; omega
    simp only [weave, List.length_append, List.flatten_cons]
    omega

/-- Fields that have room stand in the payload whole (R208). -/
theorem fieldBytes_eq {limit : Nat} (free : Nat → List Byte) {given : List (List Byte)}
    (h : given.flatten.length ≤ limit) :
    fieldBytes limit free given = weave free (limit - given.flatten.length) 0 given := by
  have := weave_length free given (limit - given.flatten.length) 0
  exact List.take_of_length_le (by omega)

/-! ### Leaves of one event -/

/-- The tap of a handset that leaves several lines in one event is closed with the last leave (R153). -/
theorem cuLeaves_cons (reason : CloseCause) (n : Nat) (o : Occupant) (rest : List (Nat × Occupant)) (p : Part) :
    ((∃ x ∈ rest, x.2 = o) ∧ cuLeaves reason ((n, o) :: rest) p = cuLeaves reason rest (p.cuLeaveLine n o))
      ∨ ((∀ x ∈ rest, x.2 ≠ o) ∧ cuLeaves reason ((n, o) :: rest) p = cuLeaves reason rest (p.cuLeave n reason o)) := by
  simp only [cuLeaves]
  split
  · rename_i h
    obtain ⟨x, hx, he⟩ := List.any_eq_true.mp h
    exact .inl ⟨⟨x, hx, eq_of_beq he⟩, rfl⟩
  · rename_i h
    exact .inr ⟨fun x hx he => h (List.any_eq_true.mpr ⟨x, hx, by simp [he]⟩), rfl⟩

/-! ### Unfinished frames -/

/-- With no boundary waiting a player's frame is finished (R131). -/
@[simp] theorem finishAdvance_idle {p : Part} {k : Nat} (h : .cueBlockBoundary k ∉ p.events) : p.finishAdvance k = p := by
  simp [Part.finishAdvance, h]

/-- With none of its own events waiting a highway's frame is finished (R179). -/
@[simp] theorem finishHighway_idle {p : Part} {h : Nat} (hq : ∀ e ∈ p.events, ownHighwayEvent h e = false) :
    p.finishHighway h = p := by
  have hf : p.events.filter (ownHighwayEvent h) = [] := List.filter_eq_nil_iff.mpr fun e he => by simp [hq e he]
  simp [Part.finishHighway, Part.finishOwn, hf]

/-! ### What TU hands over -/

/-- No restart waiting, what is due is handed over (R172); a restart waiting, nothing is (R206). -/
theorem dueNow_cases (p : Part) :
    (.restartBegin ∈ p.events ∧ p.dueNow = []) ∨ (.restartBegin ∉ p.events ∧ p.dueNow = p.tu.dueEntries) := by
  simp only [Part.dueNow]
  split
  · rename_i h; exact .inl ⟨h, rfl⟩
  · rename_i h; exact .inr ⟨h, rfl⟩

/-! ### Starts -/

theorem powerOnPart_conds : (powerOnPart false).conds = resetConds := by decide +kernel

/-- The reset state holds the part as POWER_ON leaves it (R207). -/
theorem powerOnPart_reset : powerOnPart false = State.reset.part := by
  have h : powerOnPart false = { au := { rrdyFresh := true }, conds := (powerOnPart false).conds } := by rw [powerOnPart]
  rw [h, powerOnPart_conds, State.reset]

/-- A host command that CP does not take, since it is starting, restarting or has taken a RESTART, changes nothing (R206, R207). -/
theorem hostRun_not_running {c : Instr} {body : Link → Part → Answered} {after : Link → Link} {s : State}
    (hw : c ∉ s.part.events) (hp : s.link.phase ≠ .running) : hostRun c body after s = s := by
  unfold hostRun
  split <;> simp [hw, hp]

theorem countStart_of_not_starting {s : State} (h : ∀ n, s.link.phase ≠ .starting n) : s.countStart = s := by
  unfold State.countStart
  split <;> first | exact absurd ‹_› (h _) | rfl

/-- Counting down to READY, and READY itself, touch nothing of the part but the conditions (R204, R207). -/
theorem countStart_part (s : State) : s.countStart.part = { s.part with conds := s.countStart.part.conds } := by
  unfold State.countStart
  split <;> rfl

theorem countStart_pending (s : State) : s.countStart.pending = s.pending := by
  unfold State.countStart
  split <;> rfl

end Sys2Proof.Machine
end

