-- ==== Sys2Proof/Laws/PerInstr.lean ====
section
/-! SUPPORT. One lemma per row: a host command is well formed exactly when its tag is one byte (R208), and an event carries no
tag. -/

namespace Sys2Proof.Laws

open Sys2Proof

/-- A row that carries a tag is well formed exactly when the tag is one byte (R208). -/
def Tagged.Statement (i : Instr) : Prop := ∀ tag cmd, i.host? = some (tag, cmd) → (i.wf = true ↔ tag < 256)

theorem tagged_of_host {i : Instr} {t : Nat} {c : Cmd} (h : i.host? = some (t, c)) : Tagged.Statement i := by
  intro tag cmd h'
  rw [h] at h'
  cases h'
  simp [Instr.wf, h]

theorem tagged_of_event {i : Instr} (h : i.host? = none) : Tagged.Statement i := by
  intro tag cmd h'
  rw [h] at h'
  cases h'

theorem Tagged.powerOn (x0 x1 x2 : Bool) (x3 : Nat) :
    Tagged.Statement (Instr.powerOn x0 x1 x2 x3) := tagged_of_event rfl
theorem Tagged.linkBreak : Tagged.Statement (Instr.linkBreak) := tagged_of_event rfl
theorem Tagged.frameReceived (x0 : List Byte) : Tagged.Statement (Instr.frameReceived x0) := tagged_of_event rfl
theorem Tagged.frameGapTimeout (x0 : List Byte) : Tagged.Statement (Instr.frameGapTimeout x0) := tagged_of_event rfl
theorem Tagged.transmitFrameDone : Tagged.Statement (Instr.transmitFrameDone) := tagged_of_event rfl
theorem Tagged.defineLine (x0 x1 x2 : Nat) (x3 : BitVec 24) (x4 : Nat) (x5 x6 : Option Nat) (x7 x8 x9 : Nat) :
    Tagged.Statement (Instr.defineLine x0 x1 x2 x3 x4 x5 x6 x7 x8 x9) := tagged_of_host rfl
theorem Tagged.removeLine (x0 x1 : Nat) : Tagged.Statement (Instr.removeLine x0 x1) := tagged_of_host rfl
theorem Tagged.definePosition (x0 x1 : Nat) (x2 : PositionArgs) :
    Tagged.Statement (Instr.definePosition x0 x1 x2) := tagged_of_host rfl
theorem Tagged.setDeviceGain (x0 x1 x2 x3 x4 : Nat) :
    Tagged.Statement (Instr.setDeviceGain x0 x1 x2 x3 x4) := tagged_of_host rfl
theorem Tagged.setTrim (x0 x1 x2 : Nat) (x3 : Int) : Tagged.Statement (Instr.setTrim x0 x1 x2 x3) := tagged_of_host rfl
theorem Tagged.defineSpeaker (x0 x1 x2 x3 x4 x5 x6 x7 x8 : Nat) :
    Tagged.Statement (Instr.defineSpeaker x0 x1 x2 x3 x4 x5 x6 x7 x8) := tagged_of_host rfl
theorem Tagged.defineGroup (x0 x1 : Nat) (x2 : List (Nat × Nat)) (x3 x4 : Nat) :
    Tagged.Statement (Instr.defineGroup x0 x1 x2 x3 x4) := tagged_of_host rfl
theorem Tagged.cueRoute (x0 x1 : Nat) (x2 : Option Nat) (x3 x4 : Nat) :
    Tagged.Statement (Instr.cueRoute x0 x1 x2 x3 x4) := tagged_of_host rfl
theorem Tagged.setGuard (x0 x1 x2 : Nat) : Tagged.Statement (Instr.setGuard x0 x1 x2) := tagged_of_host rfl
theorem Tagged.digest (x0 : Nat) : Tagged.Statement (Instr.digest x0) := tagged_of_host rfl
theorem Tagged.digestFinish : Tagged.Statement (Instr.digestFinish) := tagged_of_event rfl
theorem Tagged.readLine (x0 x1 : Nat) : Tagged.Statement (Instr.readLine x0 x1) := tagged_of_host rfl
theorem Tagged.readPosition (x0 x1 : Nat) : Tagged.Statement (Instr.readPosition x0 x1) := tagged_of_host rfl
theorem Tagged.seize (x0 x1 x2 x3 : Nat) : Tagged.Statement (Instr.seize x0 x1 x2 x3) := tagged_of_host rfl
theorem Tagged.leave (x0 x1 x2 x3 : Nat) : Tagged.Statement (Instr.leave x0 x1 x2 x3) := tagged_of_host rfl
theorem Tagged.hold (x0 x1 x2 x3 : Nat) : Tagged.Statement (Instr.hold x0 x1 x2 x3) := tagged_of_host rfl
theorem Tagged.ring (x0 x1 : Nat) : Tagged.Statement (Instr.ring x0 x1) := tagged_of_host rfl
theorem Tagged.setPrivacy (x0 x1 x2 x3 : Nat) : Tagged.Statement (Instr.setPrivacy x0 x1 x2 x3) := tagged_of_host rfl
theorem Tagged.releaseLine (x0 x1 : Nat) : Tagged.Statement (Instr.releaseLine x0 x1) := tagged_of_host rfl
theorem Tagged.speakerListen (x0 x1 x2 x3 : Nat) :
    Tagged.Statement (Instr.speakerListen x0 x1 x2 x3) := tagged_of_host rfl
theorem Tagged.speakerGain (x0 x1 x2 x3 : Nat) : Tagged.Statement (Instr.speakerGain x0 x1 x2 x3) := tagged_of_host rfl
theorem Tagged.speakerTalkPress (x0 x1 x2 : Nat) :
    Tagged.Statement (Instr.speakerTalkPress x0 x1 x2) := tagged_of_host rfl
theorem Tagged.speakerTalkRelease (x0 x1 x2 : Nat) :
    Tagged.Statement (Instr.speakerTalkRelease x0 x1 x2) := tagged_of_host rfl
theorem Tagged.groupTalkPress (x0 x1 x2 : Nat) : Tagged.Statement (Instr.groupTalkPress x0 x1 x2) := tagged_of_host rfl
theorem Tagged.groupTalkRelease (x0 x1 x2 : Nat) :
    Tagged.Statement (Instr.groupTalkRelease x0 x1 x2) := tagged_of_host rfl
theorem Tagged.idleRevoke (x0 x1 : Nat) : Tagged.Statement (Instr.idleRevoke x0 x1) := tagged_of_event rfl
theorem Tagged.refreshOutput (x0 x1 : Nat) : Tagged.Statement (Instr.refreshOutput x0 x1) := tagged_of_host rfl
theorem Tagged.readMix (x0 x1 : Nat) : Tagged.Statement (Instr.readMix x0 x1) := tagged_of_host rfl
theorem Tagged.cueLoad (x0 x1 x2 x3 x4 : Nat) (x5 : List Sample) :
    Tagged.Statement (Instr.cueLoad x0 x1 x2 x3 x4 x5) := tagged_of_host rfl
theorem Tagged.cueStart (x0 x1 x2 x3 : Nat) : Tagged.Statement (Instr.cueStart x0 x1 x2 x3) := tagged_of_host rfl
theorem Tagged.cueStop (x0 x1 : Nat) : Tagged.Statement (Instr.cueStop x0 x1) := tagged_of_host rfl
theorem Tagged.cueConfig (x0 x1 x2 : Nat) : Tagged.Statement (Instr.cueConfig x0 x1 x2) := tagged_of_host rfl
theorem Tagged.readCue (x0 x1 : Nat) : Tagged.Statement (Instr.readCue x0 x1) := tagged_of_host rfl
theorem Tagged.cueBlockBoundary (x0 : Nat) : Tagged.Statement (Instr.cueBlockBoundary x0) := tagged_of_event rfl
theorem Tagged.journalFetch (x0 : Nat) (x1 : BitVec 32) (x2 : Nat) :
    Tagged.Statement (Instr.journalFetch x0 x1 x2) := tagged_of_host rfl
theorem Tagged.journalRelease (x0 : Nat) (x1 : BitVec 32) :
    Tagged.Statement (Instr.journalRelease x0 x1) := tagged_of_host rfl
theorem Tagged.readTap (x0 x1 : Nat) : Tagged.Statement (Instr.readTap x0 x1) := tagged_of_host rfl
theorem Tagged.setTime (x0 : Nat) (x1 : BitVec 48) : Tagged.Statement (Instr.setTime x0 x1) := tagged_of_host rfl
theorem Tagged.steer (x0 : Nat) (x1 : Int) : Tagged.Statement (Instr.steer x0 x1) := tagged_of_host rfl
theorem Tagged.steeringCorrection : Tagged.Statement (Instr.steeringCorrection) := tagged_of_event rfl
theorem Tagged.schedule (x0 : Nat) (x1 : BitVec 48) (x2 : Nat) (x3 : List Nat) :
    Tagged.Statement (Instr.schedule x0 x1 x2 x3) := tagged_of_host rfl
theorem Tagged.cancel (x0 x1 : Nat) : Tagged.Statement (Instr.cancel x0 x1) := tagged_of_host rfl
theorem Tagged.readSchedule (x0 x1 : Nat) : Tagged.Statement (Instr.readSchedule x0 x1) := tagged_of_host rfl
theorem Tagged.actionDue : Tagged.Statement (Instr.actionDue) := tagged_of_event rfl
theorem Tagged.probe (x0 x1 x2 : Nat) : Tagged.Statement (Instr.probe x0 x1 x2) := tagged_of_host rfl
theorem Tagged.probePhaseChange (x0 : Nat) : Tagged.Statement (Instr.probePhaseChange x0) := tagged_of_event rfl
theorem Tagged.probeEnd (x0 : Nat) : Tagged.Statement (Instr.probeEnd x0) := tagged_of_event rfl
theorem Tagged.meterOpen (x0 x1 x2 : Nat) : Tagged.Statement (Instr.meterOpen x0 x1 x2) := tagged_of_host rfl
theorem Tagged.meterCountFull (x0 : Nat) : Tagged.Statement (Instr.meterCountFull x0) := tagged_of_event rfl
theorem Tagged.meterClose (x0 x1 : Nat) : Tagged.Statement (Instr.meterClose x0 x1) := tagged_of_host rfl
theorem Tagged.readFault (x0 : Nat) : Tagged.Statement (Instr.readFault x0) := tagged_of_host rfl
theorem Tagged.clearFault (x0 : Nat) : Tagged.Statement (Instr.clearFault x0) := tagged_of_host rfl
theorem Tagged.ackCondition (x0 x1 : Nat) : Tagged.Statement (Instr.ackCondition x0 x1) := tagged_of_host rfl
theorem Tagged.status (x0 : Nat) : Tagged.Statement (Instr.status x0) := tagged_of_host rfl
theorem Tagged.restart (x0 : Nat) : Tagged.Statement (Instr.restart x0) := tagged_of_host rfl
theorem Tagged.restartBegin : Tagged.Statement (Instr.restartBegin) := tagged_of_event rfl
theorem Tagged.referenceFrame (x0 : FrameInput) : Tagged.Statement (Instr.referenceFrame x0) := tagged_of_event rfl
theorem Tagged.debouncedChange (x0 : Nat) (x1 : Bool) :
    Tagged.Statement (Instr.debouncedChange x0 x1) := tagged_of_event rfl
theorem Tagged.riseEvent (x0 : Nat) : Tagged.Statement (Instr.riseEvent x0) := tagged_of_event rfl
theorem Tagged.fallEvent (x0 : Nat) : Tagged.Statement (Instr.fallEvent x0) := tagged_of_event rfl
theorem Tagged.burstEvent (x0 x1 : Nat) : Tagged.Statement (Instr.burstEvent x0 x1) := tagged_of_event rfl
theorem Tagged.outgoingBurstEnd (x0 : Nat) : Tagged.Statement (Instr.outgoingBurstEnd x0) := tagged_of_event rfl
theorem Tagged.recallDeadlineExpiry (x0 : Nat) : Tagged.Statement (Instr.recallDeadlineExpiry x0) := tagged_of_event rfl
theorem Tagged.ringTimeout (x0 : Nat) : Tagged.Statement (Instr.ringTimeout x0) := tagged_of_event rfl
theorem Tagged.detectorHoldExpiry (x0 : Nat) : Tagged.Statement (Instr.detectorHoldExpiry x0) := tagged_of_event rfl
theorem Tagged.activityEvent (x0 : Nat) (x1 : Bool) :
    Tagged.Statement (Instr.activityEvent x0 x1) := tagged_of_event rfl
theorem Tagged.highwayFrameArrival (x0 : Nat) (x1 : LineFrame) :
    Tagged.Statement (Instr.highwayFrameArrival x0 x1) := tagged_of_event rfl
theorem Tagged.highwayWindowEnd (x0 x1 : Nat) : Tagged.Statement (Instr.highwayWindowEnd x0 x1) := tagged_of_event rfl
theorem Tagged.highwayGapLoss (x0 : Nat) : Tagged.Statement (Instr.highwayGapLoss x0) := tagged_of_event rfl
theorem Tagged.lsuHighwayLoss (x0 : Nat) : Tagged.Statement (Instr.lsuHighwayLoss x0) := tagged_of_event rfl
theorem Tagged.lsuHighwayReturn (x0 : Nat) : Tagged.Statement (Instr.lsuHighwayReturn x0) := tagged_of_event rfl
theorem Tagged.lineHighwayLost (x0 : Nat) : Tagged.Statement (Instr.lineHighwayLost x0) := tagged_of_event rfl
theorem Tagged.lineHighwayRestored (x0 : Nat) : Tagged.Statement (Instr.lineHighwayRestored x0) := tagged_of_event rfl
theorem Tagged.rrdyChange (x0 : Bool) : Tagged.Statement (Instr.rrdyChange x0) := tagged_of_event rfl
theorem Tagged.scrubMixCheck (x0 : Nat) : Tagged.Statement (Instr.scrubMixCheck x0) := tagged_of_event rfl
theorem Tagged.scrubLineCheck (x0 : Nat) : Tagged.Statement (Instr.scrubLineCheck x0) := tagged_of_event rfl
theorem Tagged.faultOffer (x0 : Offer) : Tagged.Statement (Instr.faultOffer x0) := tagged_of_event rfl
theorem Tagged.lenOutOfRange (x0 : List Byte) : Tagged.Statement (Instr.lenOutOfRange x0) := tagged_of_event rfl
theorem Tagged.breakEnd : Tagged.Statement (Instr.breakEnd) := tagged_of_event rfl

end Sys2Proof.Laws
end

