-- ==== Sys2Proof/Tests/Slice0.lean ====
section
/-! SUPPORT. Small tests: ill-formed terms that the checks refuse, worked figures and examples of the spec, and for each statement
with hypotheses a state and operands that meet them. -/

namespace Sys2Proof.Tests

set_option Elab.async false

open Sys2Proof Sys2Proof.Machine

/-! ### Small states -/

/-- A part with nothing provisioned and nothing waiting. -/
def quiet : State := {}

/-- A provisioned line of a kind in a state, appearing everywhere. -/
def lineIn (k : LineKind) (st : LState) : Line :=
  { prov := { LineProv.blank with kind := k, appear := 0xFFFFFF }, state := st }

/-- Position `pos` enabled. -/
def enable (pos : Nat) (p : Part) : Part := p.setPosition pos { p.position pos with enabled := true }

/-- Line 5 as given, its kind kept apart, and position 2 enabled. -/
def with5 (l : Line) : Part := enable 2 ((({} : Part).setLine 5 l).keepKind 5 l.prov.kind)

/-- The state around some blocks. -/
def around (p : Part) : State := { part := p }

/-- Line 5 in a state, occupied by HA of position 2. -/
def occupied (k : LineKind) (st : LState) : Part :=
  (with5 { lineIn k st with occupants := [(2, .ha)] }).setPosition 2 { enabled := true, linesA := [5] }

/-- Line 5 a hoot on which SK of position 2 talks through slot 3. -/
def talking : Part :=
  ((with5 { lineIn .hoot .opened with occupants := [(2, .sk)] }).setPosition 2
    { enabled := true, sk := some { target := .hoot 5, through := some 3, talking := true } }).setSlot 2 3
    { target := .hoot 5, talking := true }

/-- A group 7 with some talkers and waiters, of which every position is a member, the even ones with priority. -/
def floor (talkers waiters : List Nat) : Group :=
  { members := (List.range 24).map fun m => (m, m % 2 == 0), talkers := talkers.map fun n => { position := n, idle := 9 },
    waiters := waiters }

/-- Group 7 as given, position 2 enabled with slot 3 tuned to the group, its SK entry as given. -/
def group7 (r : Group) (sk : Option SkEntry) : Part :=
  ((({} : Part).setGroup 7 r).setPosition 2 { enabled := true, sk := sk }).setSlot 2 3 { target := .group 7 }

/-- A store with all 3072 words in use, none by the send of line 5. -/
def fullStore (p : Part) : Part :=
  let some16 : List Entry := List.replicate 16 { index := 0, source := 0, code := 0, essential := true, duckable := false }
  { p with mx := { p.mx with lists := Vector.ofFn fun o => if 96 ≤ o.val ∧ o.val < 289 ∧ o.val ≠ 101 then some16 else [] } }

/-- The blocks as the check of a line's record leaves them, the command taken. -/
abbrev used (s : State) (c : Instr) (n : Nat) : Part := (s.part.took c).useLine n

/-- Every entry of a table has a property when each listed one and the default have. -/
theorem all_vget {α : Type} {n : Nat} (v : Vector α n) (d : α) (P : α → Prop) (h : ∀ x ∈ v.toList, P x) (hd : P d) (i : Nat) :
    P (vget v i d) := by
  unfold vget
  rcases hv : v[i]? with _ | x
  · exact hd
  · refine h x ?_
    rw [Vector.getElem?_eq_some_iff] at hv
    obtain ⟨hi, rfl⟩ := hv
    simp

theorem undamaged (p : Part) (h : ∀ l ∈ p.cc.lines.toList, l.damage = none) (n : Nat) : (p.line n).damage = none :=
  all_vget p.cc.lines {} (fun l => l.damage = none) h rfl n

theorem untapped (v : Vector (Option Tap) 32)
    (h : ∀ o ∈ v.toList, o.all (fun x => !(x.position == 2 && x.device == .ha)) = true) (k : Nat) (x : Tap)
    (hx : vget v k none = some x) : ¬ (x.position = 2 ∧ x.device = .ha) := by
  have hk := all_vget v none (fun o => o.all (fun x => !(x.position == 2 && x.device == .ha)) = true) h rfl k
  rw [hx] at hk
  rintro ⟨h1, h2⟩
  simp [h1, h2] at hk

/-! ### Witnesses: the machine and its laws -/

theorem witness_StepRunsFrontCommand :
    ({ quiet with pending := [.status 1, .digestFinish] } : State).pending = .status 1 :: [.digestFinish]
      ∧ quiet.pending = [] := by decide +kernel

theorem witness_OutputNumbers : 2 < 24 ∧ ((with5 (lineIn .ringdown .idle)).position 2).enabled = true := by decide +kernel

/-- A journal of three entries whose numbers wrap, with a number held, one long before and one after. -/
def wrapped : CU :=
  { journal := [4294967294, 4294967295, 0].map fun n => { seq := n, time := 0, kind := .recorderBack, gap := false }, seq := 1 }

theorem witness_JournalNumbersLocated :
    ({} : CU).journal = []
      ∧ wrapped.journal = { seq := 4294967294, time := 0, kind := .recorderBack, gap := false } :: wrapped.journal.drop 1
      ∧ 4294967294 < 2 ^ 32 ∧ wrapped.used ≤ 1024
      ∧ ((0#32).toNat + 4294967296 - 4294967294) % 4294967296 < wrapped.used
      ∧ 2147483648 ≤ ((4294967293#32).toNat + 4294967296 - 4294967294) % 4294967296
      ∧ wrapped.used ≤ ((1#32).toNat + 4294967296 - 4294967294) % 4294967296
      ∧ ((1#32).toNat + 4294967296 - 4294967294) % 4294967296 < 2147483648 := by decide +kernel

/-- Some command waits. -/
def queued (c : Instr) : State := { quiet with pending := [c] }

theorem witness_LinkLawKept : (queued (.status 1)).linkLaw ∧ ∃ t, step (queued (.status 1)) = .next t :=
  ⟨by unfold State.linkLaw; decide +kernel, _, rfl⟩

theorem witness_JournalLawKept :
    (queued (.rrdyChange true)).part.cu.law ∧ ∃ t, step (queued (.rrdyChange true)) = .next t :=
  ⟨by unfold CU.law CU.sequenced; decide +kernel, _, rfl⟩

theorem witness_MixStoreLawKept :
    (queued (.readMix 1 3)).part.mx.law ∧ ∃ t, step (queued (.readMix 1 3)) = .next t :=
  ⟨by unfold MX.law; decide +kernel, _, rfl⟩

theorem witness_BlockLawsKept :
    (queued (.steer 1 5)).part.tu.law
      ∧ (∀ c rest, (queued (.steer 1 5)).pending = c :: rest → c.wf = true)
      ∧ (∀ h, h < 4 → (quiet.part.highway h).law) ∧ (∀ k, k < 8 → (quiet.part.player k).law)
      ∧ (∀ g, g < 32 → (quiet.part.group g).law) ∧ ∃ t, step (queued (.steer 1 5)) = .next t :=
  ⟨by unfold TU.law; decide +kernel, (by intro c rest h; cases h; decide +kernel), by unfold Highway.law; decide +kernel,
    by unfold Player.law; decide +kernel, by unfold Group.law; decide +kernel, _, rfl⟩

/-- The notice queue is full, and port 5 is about to change. -/
def leadDropped : State :=
  { part := ({} : Part).setPort 5 { provisioned := true, edge := .both }
    link := { serial := 255, notices := List.replicate 64 { serial := 1, time := 0, body := .condition 1 } } }

theorem witness_NoticesQueuedOrDropped :
    (quiet.link.notices.length < 64 ∧ 64 ≤ leadDropped.link.notices.length)
      ∧ leadDropped.link.notices.length = 64 ∧ leadDropped.part.opsDone = [] ∧ leadDropped.part.early = []
      ∧ leadDropped.part.outbox = []
      ∧ (let q := (leadDropped.part.took (.debouncedChange 5 true)).port 5
        q.debounced ≠ true ∧ q.provisioned = true ∧ q.outOfService = false ∧ q.kind = .ringdown ∧ q.edge = .both) := by
  decide +kernel

/-- The guard class LINES locked. -/
def locked : State := around { cc := { guards := Vector.replicate 4 .locked } }

theorem witness_LockedStaysLocked :
    locked.link.phase ≠ .restarting ∧ (∀ a b r n, Instr.setGuard 1 0 0 ≠ .powerOn a b r n)
      ∧ locked.part.guardOf 0 = .locked ∧ ∃ t, exec (.setGuard 1 0 0) locked = .next t :=
  ⟨by decide +kernel, (by intro a b r n h; cases h), by decide +kernel, _, rfl⟩

theorem witness_RefusedCommandChangesNothing :
    (Instr.readLine 1 192).host? = some (1, .readLine) ∧ quiet.takes (.readLine 1 192) = true ∧ quiet.part.outbox = []
      ∧ (∀ n, (quiet.part.line n).damage = none) ∧ (∀ x ∈ quiet.link.replies, x.tag = 1 → x.answer = none)
      ∧ (∀ k r i, quiet.link.tx ≠ some (.reply 1 k r i))
      ∧ ∃ t, exec (.readLine 1 192) quiet = .next t ∧ Replied t 1 .readLine .badValue .none
        ∧ Result.badValue.refusal = true :=
  ⟨by decide +kernel, by decide +kernel, rfl, undamaged _ (by decide +kernel), by decide +kernel,
    fun _ _ _ h => (by cases h), _, rfl, .inl (by decide +kernel), by decide +kernel⟩

/-! ### Witnesses: the control link -/

theorem witness_PowerOnStarts :
    let s := nextOf (exec (.powerOn true true false 2) quiet) quiet
    let i : FrameInput := { mics := Vector.replicate 72 0, rrdy := true, upsets := [], late := [] }
    (quiet.pending = [] ∧ (Instr.status 1).host? = some (1, .status) ∧ (Instr.status 1) ∉ s.part.events
        ∧ s.link.phase = .starting 2)
      ∧ (s.frame i).link.phase = .starting 2 ∧ (2 : Nat) ≤ 2
      ∧ (let u := nextOf (exec (.powerOn true true false 1) quiet) quiet
        (u.frame i).link.phase = .starting 1 ∧ (u.frame i).link.tx = none) := by decide +kernel

/-- The result of a digest waits in op slot 2. -/
def resultHeld : Part :=
  { ops := vset (Vector.replicate 4 none) 2 (some { tag := 9, op := .digest, result := some .disturbed }), opsDone := [2] }

/-- The answer of a RESTART is queued. -/
def restartAnswered : State :=
  { link := { phase := .restartTaken, replies := [{ tag := 3, kind := .cmd .restart, answer := some (.ok, .none) }] } }

theorem witness_LinkBreakFlushes :
    (quiet.part.opsDone = [] ∧ (quiet.link.phase = .restartTaken → quiet.link.replies.any Place.restartReply = false))
      ∧ ((around resultHeld).part.opsDone = [2] ∧ 2 < 4 ∧ (around resultHeld).link.phase = .running
        ∧ vget (around resultHeld).part.ops 2 none = some { tag := 9, op := .digest, result := some .disturbed })
      ∧ restartAnswered.link.phase = .restartTaken ∧ restartAnswered.link.replies.any Place.restartReply = true := by
  decide +kernel

/-- All eight reply places are held. -/
def placesHeld : State := { link := { replies := List.replicate 8 { tag := 1, kind := .cmd .status, answer := none } } }

/-- A CUE_LOAD waits to be taken, its place held, while a notice is being sent. -/
def loading : State :=
  { part := { events := [.cueLoad 4 1 0 0 1 (List.replicate 32 0)] }
    link :=
      { tx := some (.notice { serial := 0, time := 0, body := .condition 0 }),
        replies := [{ tag := 4, kind := .cmd .cueLoad, answer := none }] } }

theorem witness_ReceiverTakesAndDiscards :
    (quiet.link.phase = .running ∧ quiet.link.inBreak = false ∧ quiet.link.rxBuf = [] ∧ ([] : List Byte).length ≤ 248
        ∧ quiet.link.replies.length < 8 ∧ (0x5F#8 : Byte) ≠ 0 ∧ 0x60 ≤ (0x60#8 : Byte).toNat)
      ∧ (placesHeld.link.phase = .running ∧ placesHeld.link.inBreak = false ∧ placesHeld.link.rxBuf = []
        ∧ 8 ≤ placesHeld.link.replies.length)
      ∧ (2 ≤ (2#8 : Byte).toNat ∧ (250#8 : Byte).toNat ≤ 250 ∧ [(0#8 : Byte)].length < (2#8 : Byte).toNat + 2
        ∧ (1#8 : Byte).toNat < 2 ∧ 250 < (251#8 : Byte).toNat)
      ∧ (({ quiet with link := { phase := .restartTaken } } : State).link.phase ≠ .running
        ∧ ({ quiet with link := { phase := .restartTaken } } : State).link.rxBuf = [])
      ∧ (({ quiet with link := { inBreak := true } } : State).link.inBreak = true
        ∧ ({ quiet with link := { inBreak := true } } : State).link.rxBuf = [])
      ∧ (let inner : List Byte := [0x10, 0x01]
        let crc : List Byte := [0, 0]
        inner.length = (2#8 : Byte).toNat ∧ crc.length = 2 ∧ bytesBE 2 (crc16 (2#8 :: inner)).toNat ≠ crc
          ∧ ∀ b ∈ 2#8 :: (inner ++ crc), b ≠ 0xA5)
      ∧ (let c := Instr.cueLoad 4 0 0 0 1 []
        c.host? = some (4, .cueLoad) ∧ c ∉ loading.part.events ∧ loading.link.phase = .running
          ∧ loading.link.inBreak = false ∧ loading.link.replies.length < 8 ∧ loading.link.tx.isSome = true
          ∧ formatOk c = false)
      ∧ (loading.link.rxBuf = [] ∧ (255#8 : Byte) ≠ 0 ∧ (Instr.status 255).host? = some ((255#8 : Byte).toNat, .status)
        ∧ ([0] : List Byte) ≠ []) := by decide +kernel

/-- A floor time is read high byte first (R208). -/
theorem test_floor_time_bytes : fieldAt [9, 0, 0, 0, 0x0F, 0x42, 0x40, 9] 1 6 = 1000000 := by decide +kernel

/-- A malformed command is answered in its own place, behind the one of its KIND and TAG that still waits (R199). -/
theorem test_malformed_keeps_places :
    (nextOf (exec (.cueLoad 4 0 0 0 1 []) loading) {}).link.replies.map Place.answer
      = [none, some (.badFormat, .none)] := by decide +kernel

/-- A notice is being sent and two more are queued, behind no reply. -/
def notifying : State :=
  { link :=
      { tx := some (.notice { serial := 0, time := 0, body := .condition 0 }),
        notices := [1, 2].map fun n => { serial := n, time := 0, body := .condition n } } }

/-- The same with an answered reply in front. -/
def replying : State :=
  { notifying with link := { notifying.link with
    replies := [{ tag := 4, kind := .cmd .status, answer := some (.ok, .none) }] } }

/-- The RESTART reply is being sent. -/
def restartSending : State :=
  { link := { phase := .restartTaken, tx := some (.reply 3 (.cmd .restart) .ok .none) } }

/-- The notice queue is full and a result waits. -/
def noticesFull : State :=
  { part := resultHeld
    link :=
      { tx := some (.notice { serial := 0, time := 0, body := .condition 0 }),
        notices := List.replicate 64 { serial := 1, time := 0, body := .condition 1 } } }

theorem witness_TransmitDoneChoosesNext :
    (replying.link.tx = some (.notice { serial := 0, time := 0, body := .condition 0 }) ∧ replying.link.phase = .running
        ∧ replying.part.opsDone = []
        ∧ replying.link.replies = { tag := 4, kind := .cmd .status, answer := some (.ok, .none) } :: [])
      ∧ (notifying.link.tx = some (.notice { serial := 0, time := 0, body := .condition 0 })
        ∧ (∀ x ∈ notifying.link.replies.head?, x.answer = none)
        ∧ notifying.link.notices = { serial := 1, time := 0, body := .condition 1 } :: notifying.link.notices.drop 1)
      ∧ (({ notifying with link := { notifying.link with notices := [] } } : State).link.notices = [])
      ∧ (restartSending.link.phase = .restartTaken
        ∧ restartSending.link.tx = some (.reply 3 (.cmd .restart) .ok .none))
      ∧ noticesFull.link.phase = .running ∧ noticesFull.part.opsDone = [2] ∧ noticesFull.link.replies = []
      ∧ noticesFull.link.notices.length = 64
      ∧ vget noticesFull.part.ops 2 none = some { tag := 9, op := .digest, result := some .disturbed }
      ∧ (∀ y ∈ [(blankEntry .recorderLost).bytes], y.length = 20) := by decide +kernel

theorem witness_ConditionsAckedStatusReported :
    quiet.takes (.ackCondition 1 18) = true ∧ 18 < 19 ∧ quiet.takes (.ackCondition 1 19) = true ∧ 19 ≤ 19
      ∧ quiet.takes (.status 255) = true ∧ quiet.part.early = [] ∧ quiet.part.outbox = [] := by decide +kernel

/-! ### Witnesses: the floor plan -/

theorem witness_DefineLineWritesRecord :
    let c := Instr.defineLine 1 191 2 0xFFFFFF 1 (some 7) none 1 3 0
    let p := used quiet c 191
    lineKindOf 2 = some .hoot ∧ policyOf 1 = some .bestEffort ∧ senseOf 1 = some .inverted ∧ edgeOf 3 = some .both
      ∧ 191 < 192 ∧ cueChoiceOk (some 7) = true ∧ cueChoiceOk none = true ∧ quiet.part.guardOf 0 = .opened
      ∧ (p.line 191).state = .unprovisioned ∧ ((p.line 191).prov.kind = .hoot → False)
      ∧ (∀ v, Instr.debouncedChange 191 v ∉ p.events) ∧ quiet.takes c = true ∧ quiet.roomy
      ∧ (p.line 191).state ≠ .outOfService := by
  unfold State.roomy
  decide +kernel

theorem witness_RemoveLineClearsRecord :
    let s := around (with5 (lineIn .hoot .opened))
    let c := Instr.removeLine 1 5
    let p := used s c 5
    5 < 192 ∧ s.part.guardOf 0 = .opened ∧ (p.line 5).state = .opened ∧ (p.line 5).occupants = [] ∧ p.targeted 5 = false
      ∧ (∀ v, Instr.debouncedChange 5 v ∉ p.events) ∧ s.takes c = true ∧ s.roomy := by
  unfold State.roomy
  decide +kernel

/-- Arguments of a position whose codes and trims are out of range. -/
def wide : PositionArgs :=
  { enabled := 1, rxA := 77, rxB := 76, micA := 0, micB := 1000, micS := 64, sideA := 0, sideB := 40, trimEA := -25,
    trimEB := 13, trimSL := 12, trimSR := -24, duck := 41, ringOut := 1, audible := 0, recallTime := 601 }

theorem witness_DefinePositionWritesRecord :
    let c := Instr.definePosition 1 23 wide
    let p := quiet.part.took c
    let p1 := p.setPosition 23 (positionRecord wide (p.position 23) true .sr false)
    onOffOf wide.enabled = some true ∧ sideOf wide.ringOut = some .sr ∧ onOffOf wide.audible = some false ∧ 23 < 24
      ∧ quiet.part.guardOf 1 = .opened ∧ quiet.takes c = true ∧ (p1.edit? (positionOuts p1 23)).isSome = true := by
  decide +kernel

theorem witness_DefinePosition_full :
    let s := around (fullStore {})
    let c := Instr.definePosition 1 23 wide
    let p := s.part.took c
    let p1 := p.setPosition 23 (positionRecord wide (p.position 23) true .sr false)
    s.takes c = true ∧ p1.edit? (positionOuts p1 23) = none := by decide +kernel

/-- The change of a gain fits. -/
def gainFits (s : State) (pos dev which code : Nat) : Bool :=
  match gainChange s.part pos dev which (min code 76) with
  | some (q, outs) => ((s.part.setPosition pos q).edit? outs).isSome
  | none => false

theorem witness_GainAndTrimWriteOneField :
    let s := around (occupied .ringdown .connected)
    let full := around (fullStore (occupied .ringdown .connected))
    s.takes (.setDeviceGain 1 2 0 0 77) = true ∧ s.takes (.setDeviceGain 1 2 1 0 77) = true
      ∧ s.takes (.setDeviceGain 1 2 2 1 76) = true
      ∧ (gainFits s 2 0 0 77 && gainFits s 2 1 0 0 && gainFits s 2 0 1 5 && gainFits s 2 1 1 5 && gainFits s 2 2 1 5
        && gainFits s 2 0 2 0 && gainFits s 2 1 2 5) = true
      ∧ (gainChange full.part 2 0 2 40).isSome = true ∧ gainFits full 2 0 2 40 = false
      ∧ 23 < 24 ∧ 3 < 4 ∧ quiet.takes (.setTrim 1 23 3 (-25)) = true := by decide +kernel

theorem witness_DefineSpeakerWritesSlot :
    let s := around (with5 (lineIn .hoot .opened))
    let c := Instr.defineSpeaker 1 2 11 1 5 1 80 1 1
    let p1 := fun (p : Part) => p.setSlot 2 11 { p.slot 2 11 with
      target := .hoot 5, side := .sr, gain := 76, priority := true, listen := true }
    sideOf 1 = some .sr ∧ onOffOf 1 = some true ∧ 11 < 12 ∧ s.part.guardOf 2 = .opened
      ∧ ((s.part.line 5).state ≠ .unprovisioned ∧ vget s.part.cc.kinds 5 .ringdown = .hoot)
      ∧ s.part.slotInUse 2 11 = false ∧ s.takes c = true
      ∧ ((p1 (s.part.took c)).edit? [10, 11]).isSome = true
      ∧ (p1 ((fullStore s.part).took c)).edit? [10, 11] = none := by decide +kernel

/-- Position 2 enabled, its slot 4 tuned to group 7 and listening as given. -/
def slot4 (listen : Bool) : Part := enable 2 (({} : Part).setSlot 2 4 { target := .group 7, listen := listen })

theorem witness_SpeakerListenAndGain :
    let s := around (slot4 false)
    let on := fun (p : Part) => p.setSlot 2 4 { p.slot 2 4 with listen := true }
    onOffOf 1 = some true ∧ s.takes (.speakerListen 1 2 4 1) = true
      ∧ ((around (slot4 true)).part.slot 2 4).listen = true
      ∧ ((s.part.slot 2 4).listen ≠ true ∧ (s.part.slot 2 4).target ≠ .none ∧ (s.part.position 2).enabled = true)
      ∧ ((quiet.part.slot 23 11).listen ≠ true ∧ (quiet.part.slot 23 11).target = .none)
      ∧ ((on (s.part.took (.speakerListen 1 2 4 1))).edit? [sideOutput 2 .sl]).isSome = true
      ∧ (on ((fullStore s.part).took (.speakerListen 1 2 4 1))).edit? [sideOutput 2 .sl] = none
      ∧ (around (slot4 true)).takes (.speakerGain 1 2 4 77) = true
      ∧ (((slot4 true).setSlot 2 4 { target := .group 7, listen := true, gain := 76 }).edit? [sideOutput 2 .sl]).isSome
        = true := by decide +kernel

theorem witness_GroupRouteGuardWritten :
    let c := Instr.defineGroup 1 31 [(0, 1), (23, 0)] 77 301
    let live := around (group7 (floor [2] []) none)
    let route := fun (p : Part) => { p with cc := { p.cc with
      routes := vset p.cc.routes 31 (some { player := 7, output := 95, code := 76 }) } }
    let on := enable 23 {}
    31 < 32 ∧ (∀ m ∈ [(0, 1), (23, 0)], m.1 < 24 ∧ m.2 < 2) ∧ ([(0, 1), (23, 0)].map Prod.fst).Nodup
      ∧ quiet.part.guardOf 3 = .opened ∧ quiet.takes c = true ∧ (quiet.part.group 31).talkers = []
      ∧ (quiet.part.group 31).waiters = []
      ∧ (quiet.takes (.defineGroup 1 32 [] 0 0) = true ∧ quiet.takes (.defineGroup 1 31 [(24, 0)] 0 0) = true
        ∧ quiet.takes (.defineGroup 1 31 [(0, 2)] 0 0) = true ∧ quiet.takes (.defineGroup 1 31 [(3, 0), (3, 1)] 0 0) = true)
      ∧ ((live.part.group 7).talkers ≠ [] ∧ live.takes (.defineGroup 1 7 [] 0 0) = true)
      ∧ (quiet.takes (.cueRoute 1 31 (some 7) 95 77) = true ∧ ((route on).edit? [95]).isSome = true
        ∧ (route (fullStore on)).edit? [95] = none)
      ∧ (levelOf 2 = some .locked ∧ levelOf 0 = some .opened ∧ locked.takes (.setGuard 1 3 2) = true
        ∧ locked.part.guardOf 3 = .locked ∧ quiet.part.guardOf 3 ≠ .locked ∧ Level.opened ≠ .locked) := by decide +kernel

theorem witness_GuardedCommandsRefused :
    (∀ cls, cls < 4 → locked.part.guardOf cls ≠ .opened)
      ∧ locked.takes (.defineLine 1 191 2 0 2 none (some 7) 1 3 0) = true ∧ locked.takes (.removeLine 1 0) = true
      ∧ locked.takes (.definePosition 1 23 wide) = true ∧ wide.enabled < 2 ∧ wide.ringOut < 2 ∧ wide.audible < 2
      ∧ locked.takes (.defineSpeaker 1 23 11 1 191 1 0 1 1) = true
      ∧ locked.takes (.defineGroup 1 31 [(0, 1), (23, 0)] 0 0) = true := by decide +kernel

/-- A digest runs with op slot 1, slot 0 being used by a probe; `next` is its next record. -/
def digesting (next : Nat) : Part :=
  { cc := { digest := some { next := next, crc := 0x12345678 } }
    ops := vset (vset (Vector.replicate 4 none) 0 (some { tag := 8, op := .probe 5, result := none })) 1
      (some { tag := 9, op := .digest, result := none }) }

/-- All four op slots are busy. -/
def opsFull : Part := { ops := Vector.replicate 4 (some { tag := 8, op := .probe 5, result := none }) }

theorem witness_DigestStartsAndFinishes :
    (quiet.part.cc.digest = none ∧ 0 < 4 ∧ vget quiet.part.ops 0 none = none ∧ quiet.takes (.digest 1) = true)
      ∧ ((around (digesting 3)).part.cc.digest ≠ none ∧ (around (digesting 3)).takes (.digest 1) = true)
      ∧ ((∀ j, j < 4 → (vget opsFull.ops j none).isSome = true) ∧ (around opsFull).takes (.digest 1) = true)
      ∧ ((digesting 535).cc.digest = some { next := 535, crc := 0x12345678 } ∧ (digesting 535).opsDone = [] ∧ 1 < 4
        ∧ vget (digesting 535).ops 1 none = some { tag := 9, op := .digest, result := none }
        ∧ (∀ j, j < 1 → ∀ x ∈ vget (digesting 535).ops j none, x.op = .digest → x.result ≠ none)
        ∧ (around (digesting 535)).roomy) := by
  unfold State.roomy
  decide +kernel

theorem witness_ProvisioningWriteDisturbsDigest :
    let s := around (digesting 3)
    (Instr.setTrim 1 0 0 0).host? = some (1, .setTrim)
      ∧ s.takes (.setTrim 1 0 0 0) = true ∧ s.part.cc.digest = some { next := 3, crc := 0x12345678 } ∧ s.part.opsDone = []
      ∧ vget s.part.ops 1 none = some { tag := 9, op := .digest, result := none }
      ∧ (∀ j, j < 1 → ∀ x ∈ vget s.part.ops j none, x.op = .digest → x.result ≠ none)
      ∧ (∀ x ∈ s.link.replies, x.tag = 1 → x.answer = none) ∧ s.link.tx = none
      ∧ ∃ t, exec (.setTrim 1 0 0 0) s = .next t ∧ t.link.tx = some (.reply 1 (.cmd .setTrim) .ok .none) :=
  ⟨by decide +kernel, by decide +kernel, by decide +kernel, rfl, by decide +kernel, by decide +kernel, by decide +kernel, rfl,
    _, rfl, by decide +kernel⟩

theorem witness_ReadLineAndPosition :
    191 < 192 ∧ quiet.takes (.readLine 1 191) = true ∧ 23 < 24 ∧ quiet.takes (.readPosition 1 23) = true
      ∧ quiet.takes (.readLine 1 192) = true ∧ quiet.takes (.readPosition 1 24) = true := by decide +kernel

/-! ### Witnesses: handsets and lines -/

/-- A seize of line 5 by HA of position 2 from these blocks passes every check and its edit fits. -/
def seizable (p0 : Part) : Bool :=
  let c := Instr.seize 1 5 2 0
  let s := around p0
  let p := used s c 5
  let l := p.line 5
  let mv := seizeMove l.prov.kind l.state (p.farLead 5)
  let p1 := p.askTap 5 2 .ha
  let p2 := if l.state = .probing then p1.abortProbe 5 else p1
  let q := (p2.setLine 5 (l.seized mv.1)).attach 5 (2, .ha)
  let outs := occupantOuts q 5 (2, .ha) ++ stateOuts p 5 l (l.seized mv.1)
  seizeCheck p 5 2 .ha == none && answerRefuses l.prov.policy p1.cu.answer == none && editFits q.mx (editOf q outs)
    && s.takes c

/-- A line whose occupant is HB of position 3. -/
def joined (k : LineKind) (st : LState) : Part :=
  (with5 { lineIn k st with occupants := [(3, .hb)] }).setPosition 3 { enabled := true, linesB := [5] }

theorem witness_SeizeConnects :
    (seizable (with5 (lineIn .ringdown .idle)) && seizable (with5 (lineIn .ringdown .probing))
      && seizable (with5 (lineIn .manual .idle)) && seizable (with5 (lineIn .manual .probing))
      && seizable (with5 (lineIn .ringdown .ringingIn)) && seizable (with5 (lineIn .manual .ringingIn))
      && seizable (with5 { lineIn .ringdown .held with holdOwner := some 3 }) && seizable (with5 (lineIn .manual .held))
      && seizable (joined .ringdown .calling) && seizable (joined .manual .connected)
      && seizable (joined .ringdown .clearing) && seizable (with5 (lineIn .hoot .opened))) = true
      ∧ handsetOf 0 = some .ha ∧ quiet.roomy := by
  unfold State.roomy
  decide +kernel

/-- Line 5 ringdown and idle, with a record policy. -/
def taped (pol : Policy) : Part :=
  with5 { prov := { LineProv.blank with appear := 0xFFFFFF, policy := pol }, state := .idle }

/-- Every recorder channel taps HB of position 9. -/
def allTapped (p : Part) : Part :=
  { p with cu := { p.cu with taps := Vector.replicate 32 (some
      { position := 9, device := .hb, ref := 1, openTime := 0, lines := [], beyond := 0, gap := false }) } }

/-- The journal holds some entries. -/
def journalled (n : Nat) (p : Part) : Part :=
  { p with cu := { p.cu with journal := List.replicate n { seq := 0, time := 0, kind := .recorderBack, gap := false } } }

/-- The edit of a seize of line 5 by HA of position 2 fits. -/
def seizeFits (p0 : Part) : Bool :=
  let p := used (around p0) (.seize 1 5 2 0) 5
  let l := p.line 5
  let mv := seizeMove l.prov.kind l.state (p.farLead 5)
  let p1 := p.askTap 5 2 .ha
  let q := (p1.setLine 5 (l.seized mv.1)).attach 5 (2, .ha)
  editFits q.mx (editOf q (occupantOuts q 5 (2, .ha) ++ stateOuts p 5 l (l.seized mv.1)))

theorem witness_TapsOpenAndClose_open :
    let c := Instr.seize 1 5 2 0
    let p := used (around (taped .required)) c 5
    let all := allTapped (taped .bestEffort)
    let packed := journalled 1023 (taped .required)
    (seizeCheck p 5 2 .ha = none ∧ (p.line 5).prov.policy ≠ .none ∧ p.cu.answer = none
        ∧ (∀ k x, vget p.cu.taps k none = some x → ¬ (x.position = 2 ∧ x.device = .ha))
        ∧ (around (taped .required)).takes c = true
        ∧ vget p.cu.taps 0 none = none ∧ p.cu.openTaps + 2 ≤ 1024 - p.cu.journal.length
        ∧ (p.position 2).linesOf .ha = [] ∧ seizeFits (taped .required) = true)
      ∧ (seizeCheck all 5 2 .ha = none ∧ (∀ k, k < 32 → (vget all.cu.taps k none).isSome = true)
        ∧ ((allTapped (taped .required)).line 5).prov.policy = .required ∧ (all.line 5).prov.policy = .bestEffort
        ∧ seizeFits all = true ∧ all.cu.openTaps < 1024 - all.cu.journal.length
        ∧ (around all).takes c = true
        ∧ ∀ k x, vget all.cu.taps k none = some x → ¬ (x.position = 2 ∧ x.device = .ha))
      ∧ seizeCheck packed 5 2 .ha = none ∧ vget packed.cu.taps 0 none = none
      ∧ 1024 - packed.cu.journal.length < packed.cu.openTaps + 2 ∧ (packed.line 5).prov.policy = .required :=
  ⟨⟨by decide +kernel, by decide +kernel, by decide +kernel,
      untapped _ (by decide +kernel),
      by decide +kernel, by decide +kernel, by decide +kernel, by decide +kernel, by decide +kernel⟩,
    ⟨by decide +kernel, by decide +kernel, by decide +kernel, by decide +kernel, by decide +kernel, by decide +kernel,
      by decide +kernel,
      untapped _ (by decide +kernel)⟩,
    by decide +kernel, by decide +kernel, by decide +kernel, by decide +kernel⟩

/-- HA of position 2 occupies line 9 and is tapped on channel 30. -/
def tappedElsewhere (gap : Bool) (lines : List Nat) (p : Part) : Part :=
  let q := p.setPosition 2 { enabled := true, linesA := [9] }
  { q with cu := { q.cu with taps := vset q.cu.taps 30 (some
      { position := 2, device := .ha, ref := 7, openTime := 0, lines := lines, beyond := 254, gap := gap }) } }

theorem witness_TapsOpenAndClose_join :
    ∀ p0 ∈ [tappedElsewhere false [9] (with5 (lineIn .manual .idle)),
        tappedElsewhere true [9, 1, 2, 3, 4, 6, 7, 8] (taped .required), tappedElsewhere false [9, 5] (taped .bestEffort),
        tappedElsewhere false [9] (journalled 1023 (taped .required))],
      let p := used (around p0) (.seize 1 5 2 0) 5
      seizeCheck p 5 2 .ha = none ∧ p.cu.answer = none ∧ (vget p.cu.taps 30 none).isSome = true
        ∧ (∀ k, k < 30 → vget p.cu.taps k none = none) ∧ seizeFits p0 = true ∧ (around p0).takes (.seize 1 5 2 0) = true := by
  decide +kernel

/-- HA of position 2 occupies lines 9, 8 and 7, untapped. -/
def holdsThree (p : Part) : Part := p.setPosition 2 { enabled := true, linesA := [9, 8, 7] }

theorem witness_TapsOpenAndClose_openHolding :
    ∀ p0 ∈ [holdsThree (taped .required), holdsThree (journalled 1020 (taped .bestEffort))],
      let p := used (around p0) (.seize 1 5 2 0) 5
      seizeCheck p 5 2 .ha = none ∧ p.cu.answer = none ∧ vget p.cu.taps 0 none = none
        ∧ p.cu.openTaps + 2 ≤ 1024 - p.cu.journal.length ∧ ((p.position 2).linesOf .ha).Nodup
        ∧ 5 ∉ (p.position 2).linesOf .ha ∧ seizeFits p0 = true ∧ (around p0).takes (.seize 1 5 2 0) = true := by
  decide +kernel

/-- A seize of line 5 by HA of position 2 from these blocks is taken and answered OK. -/
def seized (p0 : Part) : Bool :=
  (around p0).takes (.seize 1 5 2 0) && (used (around p0) (.seize 1 5 2 0) 5).cu.answer == none
    && (nextOf (exec (.seize 1 5 2 0) (around p0)) {}).link.tx == some (.reply 1 (.cmd .seize) .ok .none)

theorem witness_SeizeConnectsAudio :
    (([.idle, .probing, .ringingIn, .held] : List LState).all fun st =>
        seized (with5 { lineIn .ringdown st with holdOwner := some 3 }) && seized (with5 (lineIn .manual st)))
      = true
      ∧ (([.calling, .connected, .clearing] : List LState).all fun st => seized (joined .ringdown st)) = true
      ∧ seized (with5 (lineIn .hoot .opened)) = true ∧ seized (taped .required) = true
      ∧ seized (tappedElsewhere false [9] (taped .bestEffort)) = true
      ∧ (vget (nextOf (exec (.seize 1 5 2 0) (around (taped .required))) {}).part.cu.taps 0 none).isSome = true := by
  decide +kernel

/-- Line 5 out of service for a damaged record that reads with an empty appearance set. -/
def memoryOut : Part := with5 { state := .outOfService, oosCause := some .memory }

/-- A SEIZE of it is refused with OUT_OF_SERVICE all the same (R61). -/
theorem test_seize_memory_out : seizeCheck memoryOut 5 2 .ha = some .outOfService := by decide +kernel

theorem witness_SeizeChecksInOrder :
    let c := Instr.seize 1 5 2 0
    let p := fun (b : Part) => used (around b) c 5
    (quiet.takes (.seize 1 192 2 0) = true ∧ quiet.takes (.seize 1 5 24 0) = true ∧ quiet.takes (.seize 1 5 2 2) = true)
      ∧ (quiet.takes c = true ∧ ((used quiet c 5).line 5).state = .unprovisioned)
      ∧ (((p (({} : Part).setLine 5 (lineIn .manual .idle))).position 2).enabled = false
        ∧ ((p (({} : Part).setLine 5 (lineIn .manual .idle))).line 5).state ≠ .unprovisioned)
      ∧ (((p (with5 { state := .idle })).line 5).prov.appear.getLsbD 2 = false
        ∧ ((p (with5 { state := .idle })).position 2).enabled = true)
      ∧ (((p (with5 (lineIn .manual .outOfService))).line 5).state = .outOfService
        ∧ ((p (with5 (lineIn .manual .outOfService))).line 5).prov.appear.getLsbD 2 = true)
      ∧ (((p memoryOut).line 5).state = .outOfService ∧ ((p memoryOut).line 5).oosCause = some .memory
        ∧ ((p memoryOut).line 5).prov.appear.getLsbD 2 = false ∧ ((p memoryOut).position 2).enabled = true)
      ∧ ((2, Dev.ha) ∈ ((p (occupied .manual .connected)).line 5).occupants)
      ∧ (4 ≤ (((p ((with5 (lineIn .manual .connected)).setPosition 2 { enabled := true, linesA := [1, 2, 3, 4] })).position
          2).linesOf .ha).length)
      ∧ (4 ≤ ((p (with5 { lineIn .manual .connected with occupants := [(3, .ha), (3, .hb), (4, .ha), (4, .hb)] })).line
          5).occupants.length)
      ∧ (let l := (p (with5 { lineIn .manual .connected with occupants := [(3, .ha)], privacy := true })).line 5
        l.privacy = true ∧ l.state ≠ .held ∧ ∃ o ∈ l.occupants, o.1 ≠ 2)
      ∧ let l := (p (with5 { lineIn .manual .held with privacy := true, holdOwner := some 3 })).line 5
        l.privacy = true ∧ l.state = .held ∧ l.holdOwner ≠ some 2 := by decide +kernel

theorem witness_LeaveRemovesOccupant :
    let c := Instr.leave 1 5 2 0
    (∀ k ∈ [LineKind.ringdown, .manual, .hoot],
        let s := around (occupied k .connected)
        ((used s c 5).line 5).state ≠ .unprovisioned ∧ (2, Dev.ha) ∈ ((used s c 5).line 5).occupants ∧ s.takes c = true
        ∧ ((used s c 5).line 5).occupants.filter (· ≠ (2, .ha)) = [])
      ∧ (∀ k x, vget (used (around (occupied .manual .connected)) c 5).cu.taps k none = some x →
          ¬ (x.position = 2 ∧ x.device = .ha)) :=
  ⟨by decide +kernel,
    untapped _ (by decide +kernel)⟩

/-- HA of position 2 on line 5 alone, tapped on channel 31. -/
def tapped : Part :=
  let p := occupied .manual .connected
  { p with cu := { p.cu with taps := vset p.cu.taps 31 (some
      { position := 2, device := .ha, ref := 7, openTime := 0, lines := [5], beyond := 0, gap := false }) } }

theorem witness_RestartEmptiesThePart :
    quiet.takes (.restart 1) = true
      ∧ ({ quiet with link := { phase := .restarting } } : State).link.phase = .restarting
      ∧ ({ quiet with link := { phase := .restarting } } : State).link.tx = none
      ∧ (vget tapped.cu.taps 31 none).isSome = true ∧ (∀ k, k < 31 → vget tapped.cu.taps k none = none)
      ∧ (tapped.position 2).linesOf .ha = [5] ∧ (2, Dev.ha) ∈ (tapped.line 5).occupants := by decide +kernel

theorem witness_TapsOpenAndClose_close :
    let c := Instr.leave 1 5 2 0
    let p := used (around tapped) c 5
    ((p.line 5).state ≠ .unprovisioned ∧ (2, Dev.ha) ∈ (p.line 5).occupants ∧ (p.position 2).linesOf .ha = [5]
        ∧ vget p.cu.taps 31 none = some
          { position := 2, device := .ha, ref := 7, openTime := 0, lines := [5], beyond := 0, gap := false }
        ∧ (∀ k, k < 31 → vget p.cu.taps k none = none) ∧ p.cu.answer = none ∧ (around tapped).takes c = true
        ∧ p.cu.openTaps < 1024 - p.cu.journal.length)
      ∧ ¬ (journalled 1023 tapped).cu.openTaps < 1024 - (journalled 1023 tapped).cu.journal.length := by decide +kernel

theorem witness_HoldParksLine :
    let c := Instr.hold 1 5 2 0
    let p := fun (b : Part) => used (around b) c 5
    (((p (occupied .ringdown .connected)).line 5).state = .connected
        ∧ ((p (occupied .ringdown .connected)).line 5).occupants = [(2, .ha)]
        ∧ (around (occupied .manual .connected)).takes c = true ∧ (around (occupied .manual .connected)).roomy)
      ∧ ((p (occupied .ringdown .calling)).line 5).state ≠ .connected
      ∧ (2, Dev.ha) ∉ ((p (joined .manual .connected)).line 5).occupants
      ∧ let l := (p (with5 { lineIn .manual .connected with occupants := [(2, .ha), (2, .hb)] })).line 5
        l.state = .connected ∧ (2, Dev.ha) ∈ l.occupants ∧ l.occupants ≠ [(2, .ha)] := by
  unfold State.roomy
  decide +kernel

theorem witness_ReleaseLineClears :
    let c := Instr.releaseLine 1 5
    let p := fun (b : Part) => used (around b) c 5
    (∀ st ∈ [LState.idle, .probing, .outOfService, .opened, .unprovisioned, .ringingIn, .calling, .connected, .clearing, .held],
        ((p (with5 (lineIn .ringdown st))).line 5).state = st)
      ∧ (around talking).takes c = true ∧ ((p talking).line 5).state = .opened ∧ ((p talking).line 5).occupants ≠ []
      ∧ (∀ o ∈ ((p talking).line 5).occupants, ∀ e ∈ ((p talking).position o.1).sk, ∀ k ∈ e.through, k < 12)
      ∧ (∀ k ∈ [LineKind.ringdown, .manual], ((p (occupied k .connected)).line 5).prov.kind = k
        ∧ ((p (occupied k .connected)).line 5).occupants = [(2, .ha)]) := by decide +kernel

/-- Line 5 MANUAL and connected, its port sending a burst. -/
def ringing : Part := (occupied .manual .connected).setPort 5 { kind := .manual, burst := 1, outLead := true }

theorem witness_RingAndPrivacy :
    let c := Instr.ring 1 5
    let p := fun (b : Part) => used (around b) c 5
    (((p (occupied .manual .connected)).line 5).state = .connected
        ∧ ((p (occupied .manual .connected)).line 5).prov.kind = .manual
        ∧ ((p (occupied .manual .connected)).port 5).burst = 0 ∧ (around (occupied .manual .connected)).takes c = true)
      ∧ ((p ringing).port 5).burst ≠ 0
      ∧ (around (occupied .manual .connected)).takes (.setPrivacy 1 5 2 1) = true
      ∧ (let l := (used (around (occupied .manual .connected)) (.setPrivacy 1 5 2 1) 5).line 5
        l.state ≠ .unprovisioned ∧ l.prov.kind ≠ .hoot ∧ (∃ o ∈ l.occupants, o.1 = 2 ∧ o.2 ≠ .sk)
        ∧ (∀ o ∈ l.occupants, o.1 = 2) ∧ l.privacy ≠ true)
      ∧ (let l := (used (around (joined .manual .connected)) (.setPrivacy 1 5 2 1) 5).line 5
        ∀ o ∈ l.occupants, o.1 = 2 → o.2 = .sk)
      ∧ let l := (used (around (with5 { lineIn .manual .connected with occupants := [(2, .ha), (3, .hb)] }))
          (.setPrivacy 1 5 2 1) 5).line 5
        (∃ o ∈ l.occupants, o.1 = 2 ∧ o.2 ≠ .sk) ∧ ∃ o ∈ l.occupants, o.1 ≠ 2 := by decide +kernel

/-! ### Witnesses: speakers and groups -/

/-- Line 5 a hoot, slot 3 of position 2 tuned to it, its SK entry as given. -/
def hootSlot (l : Line) (sk : Option SkEntry) : Part :=
  ((with5 l).setPosition 2 { enabled := true, sk := sk }).setSlot 2 3 { target := .hoot 5 }

/-- A press on the hoot of `hootSlot` fits. -/
def pressFits (b : Part) : Bool :=
  let p := used (around b) (.speakerTalkPress 1 2 3) 5
  let e : SkEntry := { target := .hoot 5, through := some 3, talking := true }
  let q := ((p.attach 5 (2, .sk)).setSk 2 (some e)).setSlot 2 3 { p.slot 2 3 with talking := true }
  editFits q.mx (editOf q [sendOutput 5])

theorem witness_HootTalkJoinsAndLeaves :
    let c := Instr.speakerTalkPress 1 2 3
    let r := Instr.speakerTalkRelease 1 2 3
    let p := fun (b : Part) => used (around b) c 5
    let crowd : List Occupant := [(6, .sk), (7, .sk), (8, .sk), (9, .sk)]
    let free := hootSlot (lineIn .hoot .opened) none
    ((free.position 2).enabled = true ∧ (free.slot 2 3).target = .hoot 5 ∧ (around free).takes c = true
        ∧ (free.position 2).sk = none ∧ ((p free).line 5).state = .opened ∧ ((p free).line 5).prov.kind = .hoot
        ∧ ((p free).line 5).occupants.length < 4 ∧ pressFits free = true ∧ pressFits (fullStore free) = false
        ∧ (around free).roomy)
      ∧ ((p (hootSlot (lineIn .hoot .outOfService) none)).line 5).state = .outOfService
      ∧ 4 ≤ ((p (hootSlot { lineIn .hoot .opened with occupants := crowd } none)).line 5).occupants.length
      ∧ ((talking.position 2).sk = some { target := .hoot 5, through := some 3, talking := true }
        ∧ (talking.slot 2 3).target = .hoot 5 ∧ (around talking).takes c = true ∧ (around talking).takes r = true
        ∧ ((used (around talking) r 5).position 2).sk = some { target := .hoot 5, through := some 3, talking := true })
      ∧ SkTarget.group 7 ≠ .hoot 5
      ∧ (around (hootSlot (lineIn .hoot .opened) (some { target := .group 7, through := none, talking := false }))).takes c
        = true := by
  unfold State.roomy
  decide +kernel

theorem witness_GroupTalkRequested :
    let c := Instr.groupTalkPress 1 2 7
    let k := Instr.speakerTalkPress 1 2 3
    let s := fun (r : Group) (sk : Option SkEntry) => around (group7 r sk)
    let e : SkEntry := { target := .group 7, through := none, talking := true }
    GroupPress (s (floor [] []) none) c 1 2 7 none .groupTalk
      ∧ GroupPress (s (floor [] []) none) k 1 2 7 (some 3) .speakerTalk
      ∧ ((s (floor [] []) none).part.position 2).enabled = true ∧ (s (floor [] []) none).takes c = true
      ∧ (s (floor [] []) none).takes k = true
      ∧ ((s {} none).part.group 7).hasMember 2 = false
      ∧ ((s (floor [2] []) (some e)).part.group 7).hasMember 2 = true
      ∧ ((s (floor [2] []) (some e)).part.position 2).sk = some e ∧ SkTarget.group 8 ≠ .group 7
      ∧ ((s (floor [4, 5, 6] []) none).part.group 7).talkers.length < 4
      ∧ (let r := (s (floor [4, 5, 6, 7] [8, 9, 11]) none).part.group 7
        4 ≤ r.talkers.length ∧ r.waiters.length < 8 ∧ r.waiters = [8] ++ [9, 11] ∧ r.priorityOf 2 = true
        ∧ (∀ w ∈ [9, 11], r.priorityOf w = false) ∧ ∀ w ∈ [8].getLast?, r.priorityOf w = true)
      ∧ (let r := (s { floor [4, 5, 6, 7] [8, 9] with members := [(2, false)] } none).part.group 7
        r.waiters = [8, 9] ++ [] ∧ r.priorityOf 2 = false ∧ r.hasMember 2 = true)
      ∧ 8 ≤ ((s (floor [4, 5, 6, 7] [8, 9, 10, 11, 12, 13, 14, 15]) none).part.group 7).waiters.length :=
  ⟨.inl ⟨rfl, rfl, rfl⟩, .inr ⟨3, by decide, rfl, by decide +kernel, rfl, rfl⟩, by decide +kernel⟩

theorem witness_GroupTalkEnds :
    let c := Instr.groupTalkRelease 1 2 7
    let k := Instr.speakerTalkRelease 1 2 3
    let e := fun (b : Bool) => ({ target := .group 7, through := some 3, talking := b } : SkEntry)
    let talks := around (group7 (floor [2] [8]) (some (e true)))
    let waits := around (group7 (floor [4, 5, 6, 7] [2]) (some (e false)))
    let late := around (group7 { floor [] [8] with talkers := [{ position := 2, idle := 480000 }] } (some (e true)))
    GroupUnpress talks c 1 2 7 .groupTalk ∧ GroupUnpress talks k 1 2 7 .speakerTalk
      ∧ talks.takes c = true ∧ talks.takes k = true ∧ (talks.part.position 2).sk = some (e true)
      ∧ (talks.part.group 7).isTalker 2 = true ∧ (talks.part.group 7).waiters.head? = some 8
      ∧ (waits.part.position 2).sk = some (e false) ∧ (waits.part.group 7).isTalker 2 = false
      ∧ ((around (group7 (floor [] []) none)).part.position 2).sk = none
      ∧ (0 < (late.part.group 7).revoke ∧ ∃ x ∈ (late.part.group 7).talkers, x.position = 2
        ∧ x.idle = 16000 * (late.part.group 7).revoke)
      ∧ ¬ ∃ x ∈ (talks.part.group 7).talkers, x.position = 2 ∧ x.idle = 16000 * (talks.part.group 7).revoke :=
  ⟨.inl ⟨rfl, rfl⟩, .inr ⟨3, by decide, rfl, by decide +kernel, rfl⟩, by decide +kernel⟩

/-- The detector of source 17 as given. -/
def heard17 (d : Detector) : Part := { mx := { detectors := vset (Vector.replicate 264 {}) 17 d } }

theorem witness_ActivityReported :
    303 < 304 ∧ ((around (slot4 true)).part.position 2).enabled = true
      ∧ ((around (slot4 true)).part.slot 2 4).listen = true
      ∧ ((around (slot4 true)).part.slot 2 4).target.source? = some 271
      ∧ (vget (heard17 { active := true, below := 3200 }).mx.detectors 17 {}).active = true
      ∧ (vget (heard17 { active := true, below := 3200 }).mx.detectors 17 {}).below = 3200
      ∧ Instr.detectorHoldExpiry 17 ∉ (heard17 {}).events
      ∧ ({ heard17 {} with events := [.detectorHoldExpiry 17, .riseEvent 3] } : Part).events
        = [] ++ .detectorHoldExpiry 17 :: [.riseEvent 3]
      ∧ (vget (heard17 { active := true, below := 3199 }).mx.detectors 17 {}).below ≠ 3200 := by decide +kernel

/-! ### Witnesses: mixes and cue players -/

theorem witness_RefreshAndReadMix :
    let s := around (slot4 true)
    s.takes (.refreshOutput 1 10) = true
      ∧ editFits s.part.mx [(10, derive (s.part.took (.refreshOutput 1 10)) 10)] = true
      ∧ derive s.part 10 ≠ [] ∧ quiet.takes (.readMix 1 319) = true ∧ quiet.takes (.readMix 1 320) = true
      ∧ quiet.takes (.refreshOutput 1 320) = true := by decide +kernel

/-- Player 7 plays, at sample 31 of block 63. -/
def playing (w : Nat) (cont : Bool) : Part :=
  ({} : Part).setPlayer 7 { playing := true, continuous := cont, block := 63, sample := 31, window := w }

theorem witness_CueLoadWritesBlocks :
    let xs : List Sample := List.replicate 64 5
    quiet.takes (.cueLoad 1 8 0 0 2 xs) = true ∧ quiet.takes (.cueLoad 1 7 2 0 2 xs) = true
      ∧ quiet.takes (.cueLoad 1 7 0 0 0 []) = true ∧ quiet.takes (.cueLoad 1 7 0 64 2 xs) = true
      ∧ quiet.takes (.cueLoad 1 7 1 0 2 xs) = true ∧ quiet.takes (.cueLoad 1 7 0 63 2 xs) = true
      ∧ ((playing 1 false).player 7).playing = true
      ∧ (∃ j, j < 2 ∧ ¬ (1 ≤ ((0 + j) % 64 + 64 - 63) % 64 ∧ ((0 + j) % 64 + 64 - 63) % 64 ≤ 1))
      ∧ (∀ j, j < 2 → 1 ≤ ((0 + j) % 64 + 64 - 63) % 64 ∧ ((0 + j) % 64 + 64 - 63) % 64 ≤ 2) := by decide +kernel

theorem witness_CuePlayersRun :
    quiet.takes (.cueStart 1 7 1 63) = true ∧ quiet.takes (.cueStart 1 8 0 0) = true
      ∧ quiet.takes (.cueStart 1 0 2 0) = true ∧ quiet.takes (.cueStart 1 0 0 64) = true
      ∧ quiet.takes (.cueStop 1 7) = true ∧ quiet.takes (.cueStop 1 8) = true ∧ quiet.takes (.cueConfig 1 7 0) = true
      ∧ quiet.takes (.cueConfig 1 8 0) = true ∧ quiet.takes (.readCue 1 7) = true ∧ quiet.takes (.readCue 1 8) = true
      ∧ (let q := (around (playing 32 false)).part.player 7
        q.playing = true ∧ q.sample = 31 ∧ (!(vget (vset q.valid q.block false) ((q.block + 1) % 64) false)) = true)
      ∧ ((vget (playing 32 false).conds 16 {}).cause = false ∧ (vget (playing 32 false).conds 16 {}).latch = false)
      ∧ (around (playing 32 false)).roomy ∧ (quiet.part.player 7).playing = false
      ∧ (let p : Part := { playing 32 false with events := [.riseEvent 3, .cueBlockBoundary 7] }
        .cueBlockBoundary 7 ∈ p.events ∧ (p.player 7).playing = true ∧ (p.player 7).sample = 31
          ∧ (p.player 7).continuous = false ∧ (p.player 7).block < 64 ∧ .cueBlockBoundary 7 ∉ quiet.part.events) := by
  unfold State.roomy
  decide +kernel

/-! ### Witnesses: journal and time -/

theorem witness_JournalFetchReleaseTap :
    let s : State := around { cu := wrapped }
    s.takes (.journalFetch 1 0 0) = true ∧ wrapped.locate 0 = .held 2 ∧ wrapped.locate 1 = .after
      ∧ wrapped.locate 4294967293#32 = .before ∧ s.takes (.journalRelease 1 0) = true
      ∧ quiet.takes (.readTap 1 32) = true ∧ vget quiet.part.cu.taps 31 none = none
      ∧ (vget tapped.cu.taps 31 none).isSome = true := by decide +kernel

/-- A correction falls on the frame that waits, and an action is due after it. -/
def steering (rem : Int) : Part :=
  { tu :=
      { floorTime := 2 ^ 48 - 1, steerRem := rem, steerCount := 255, frameWaits := true,
        schedule := [{ id := 1, due := 0, action := { kind := 6, args := [3] }, late := false }] } }

theorem witness_TimeSetAndSteered :
    quiet.takes (.setTime 1 0) = true ∧ quiet.part.cu.claimed < 1024 - quiet.part.cu.journal.length
      ∧ ¬ (journalled 1024 {}).cu.claimed < 1024 - (journalled 1024 {}).cu.journal.length
      ∧ quiet.takes (.steer 1 (-20000)) = true
      ∧ ((around (steering 1)).part.tu.frameWaits = true ∧ (steering 1).tu.steerRem ≠ 0 ∧ (steering 1).tu.steerCount = 255)
      ∧ quiet.part.tu.frameWaits = false := by decide +kernel

/-- The schedule holds `n` entries. -/
def scheduled (n now : Nat) : Part :=
  { tu :=
      { floorTime := now, nextId := n + 1,
        schedule := (List.range n).map fun k => { id := k + 1, due := 50000, action := { kind := 6, args := [3] }, late := false } } }

/-- An action waits to be taken. -/
def handedOver (kind : Nat) (args : List Nat) : Part :=
  { tu := { handed := [({ id := 4, due := 10, action := { kind := kind, args := args }, late := false }, 10)] } }

theorem witness_ScheduledActionsKeptAndRun :
    quiet.takes (.schedule 1 0 7 []) = true
      ∧ ((around (scheduled 32 0)).takes (.schedule 1 0 6 [3]) = true ∧ 32 ≤ (scheduled 32 0).tu.schedule.length)
      ∧ (0 + 16000 < (scheduled 31 16001).tu.floorTime ∧ (scheduled 31 16001).tu.schedule.length < 32)
      ∧ ((scheduled 31 16000).tu.floorTime ≤ 0 + 16000 ∧ 1 ≤ (scheduled 31 16000).tu.nextId
        ∧ (scheduled 31 16000).tu.nextId ≤ 65535)
      ∧ ((around (scheduled 3 0)).takes (.cancel 1 2) = true ∧ (∃ e ∈ (scheduled 3 0).tu.schedule, e.id = 2)
        ∧ ∀ e ∈ (scheduled 3 0).tu.schedule, e.id ≠ 4)
      ∧ quiet.takes (.readSchedule 1 31) = true ∧ quiet.takes (.readSchedule 1 32) = true
      ∧ (∀ a ∈ [(0, [5, 2, 0]), (1, [5]), (2, [2, 3, 1]), (3, [2, 3, 9]), (4, [0, 2]), (5, [7, 0, 63]), (6, [7])],
          (around (handedOver a.1 a.2)).part.tu.handed
            = [({ id := 4, due := 10, action := { kind := a.1, args := a.2 }, late := false }, 10)]) := by decide +kernel

/-! ### Witnesses: probes, meters and memory -/

/-- Line 5 is probed with a window of 800, its op slot 3 the last. -/
def probing (ph : Phase) (done : Nat) : Part :=
  { with5 { lineIn .ringdown .probing with probePhase := some ph } with
    au := { probes := [{ line := 5, window := 800, phase := ph, done := done, onSum := 828800, offSum := 83200 }] }
    ops := vset (Vector.replicate 4 none) 3 (some { tag := 9, op := .probe 5, result := none }) }

theorem witness_ProbeRunsOnIdleLine :
    let c := Instr.probe 1 5 0
    let idle := around (with5 (lineIn .ringdown .idle))
    (idle.takes c = true ∧ ((used idle c 5).line 5).state = .idle ∧ ((used idle c 5).line 5).prov.kind ≠ .hoot
        ∧ vget (used idle c 5).ops 0 none = none ∧ idle.roomy)
      ∧ (let s := around { with5 (lineIn .manual .idle) with ops := opsFull.ops }
        s.takes c = true ∧ ((used s c 5).line 5).state = .idle ∧ ∀ j, j < 4 → (vget (used s c 5).ops j none).isSome = true)
      ∧ (quiet.takes c = true ∧ ((used quiet c 5).line 5).state ≠ .idle)
      ∧ ((around (probing .toneOn 800)).part.probeOf 5
          = some { line := 5, window := 800, phase := .toneOn, done := 800, onSum := 828800, offSum := 83200 })
      ∧ ((around (probing .toneOff 800)).part.probeOf 5
          = some { line := 5, window := 800, phase := .toneOff, done := 800, onSum := 828800, offSum := 83200 }
        ∧ ((used (around (probing .toneOff 800)) (.probeEnd 5) 5).line 5).state = .probing
        ∧ (probing .toneOff 800).opsDone = []
        ∧ vget (probing .toneOff 800).ops 3 none = some { tag := 9, op := .probe 5, result := none }
        ∧ ∀ j, j < 3 → vget (probing .toneOff 800).ops j none = none)
      ∧ quiet.part.probeOf 5 = none := by
  unfold State.roomy
  decide +kernel

/-- Meter 3 as given. -/
def metering (x : Meter) : Part := { au := { meters := vset (Vector.replicate 4 none) 3 (some x) } }

/-- The Fault Record holds a fault of a rank. -/
def faulted (r : Rank) : Part :=
  { au := { fault := some { rank := r, store := .mix, index := 9, syndrome := 1, time := 0, foundBy := .use } } }

theorem witness_MetersAndFaultRecord :
    let x : Meter := { source := 303, count := 1599, sum := 5, counting := true }
    quiet.takes (.meterOpen 1 4 0) = true ∧ quiet.takes (.meterOpen 1 3 304) = true ∧ quiet.takes (.meterOpen 1 3 303) = true
      ∧ vget quiet.part.au.meters 3 none = none
      ∧ ((around (metering x)).takes (.meterOpen 1 3 0) = true ∧ (vget (metering x).au.meters 3 none).isSome = true)
      ∧ quiet.takes (.meterClose 1 4) = true ∧ quiet.takes (.meterClose 1 3) = true
      ∧ ((around (metering x)).takes (.meterClose 1 3) = true ∧ vget (metering x).au.meters 3 none = some x)
      ∧ vget (metering { x with count := 4294967295 }).au.meters 3 none = some { x with count := 4294967295 }
      ∧ (quiet.part.au.fault = none ∧ (faulted .low).au.fault ≠ none ∧ (faulted .high).au.fault ≠ none ∧ quiet.roomy)
      ∧ quiet.takes (.readFault 1) = true ∧ quiet.takes (.clearFault 1) = true
      ∧ (faulted .low).au.fault
        = some { rank := .low, store := .mix, index := 9, syndrome := 1, time := 0, foundBy := .use } := by
  unfold State.roomy
  decide +kernel

/-- Word 9 of the Mix Store, in use in the list of output 10, and damaged. -/
def damagedMix (double poisoned : Bool) : Part :=
  { mx :=
      { lists := vset (Vector.replicate 320 []) 10
          [{ index := 9, source := 17, code := 64, essential := true, duckable := false, poisoned := poisoned }],
        damage := [{ index := 9, double := double, syndrome := 3 }] } }

theorem mixList_damagedMix (double poisoned : Bool) (o : Nat) (e : Entry) (h : e ∈ (damagedMix double poisoned).mixList o) :
    o = 10 ∧ e.poisoned = poisoned := by
  by_cases ho : 10 = o
  · subst ho
    rw [show (damagedMix double poisoned).mixList 10
      = [{ index := 9, source := 17, code := 64, essential := true, duckable := false, poisoned := poisoned }] from
      vget_vset_same _ (by decide) _ _, List.mem_singleton] at h
    exact ⟨rfl, by rw [h]⟩
  · rw [show (damagedMix double poisoned).mixList o = [] from
      (vget_vset_ne _ ho _ _).trans (vget_replicate _ _)] at h
    exact absurd h (by simp)

theorem witness_ScrubDealsWithDamage :
    ((∀ d ∈ quiet.part.mx.damage, d.index ≠ 9)
        ∧ (∃ o e, o < 320 ∧ e ∈ (damagedMix true true).mixList o ∧ e.index = 9 ∧ e.poisoned = true)
        ∧ (damagedMix true false).mx.damage = [] ++ { index := 9, double := true, syndrome := 3 } :: []
        ∧ (∀ o e, e ∈ (damagedMix true false).mixList o → e.index = 9 → e.poisoned = false)
        ∧ (∀ o o' e e', e ∈ (damagedMix true false).mixList o → e' ∈ (damagedMix true false).mixList o' → e.index = 9 →
            e'.index = 9 → o = o'))
      ∧ (let single : Line := { lineIn .manual .idle with damage := some (.single 1) }
        let double := fun (st : LState) => ({ lineIn .manual st with damage := some (.double 3 LineProv.blank) } : Line)
        ((with5 (lineIn .manual .idle)).line 5).damage = none
        ∧ ((with5 single).line 5).damage = some (.single 1)
        ∧ (∀ st ∈ [LState.unprovisioned, .outOfService, .connected],
            ((with5 (double st)).line 5).damage = some (.double 3 LineProv.blank) ∧ ((with5 (double st)).line 5).state = st)
        ∧ (let p := (talking.setLine 5 { talking.line 5 with damage := some (.double 3 LineProv.blank) })
          ∀ o ∈ (p.line 5).occupants, ∀ e ∈ (p.position o.1).sk, ∀ k ∈ e.through, k < 12)) :=
  ⟨⟨by decide +kernel, ⟨10, { index := 9, source := 17, code := 64, essential := true, duckable := false, poisoned := true },
      by decide +kernel⟩, rfl,
      fun o e h _ => (mixList_damagedMix true false o e h).2,
      fun o o' e e' h h' _ _ => (mixList_damagedMix true false o e h).1.trans (mixList_damagedMix true false o' e' h').1.symm⟩,
    by decide +kernel⟩

/-! ### Witnesses: lead events, deadlines and highways -/

theorem witness_FarLeadMovesRingdown :
    (∀ k ∈ [LineKind.ringdown, .manual, .hoot], ∀ st ∈ [LState.unprovisioned, .idle, .ringingIn, .calling, .connected, .clearing,
        .held, .opened, .probing, .outOfService], ∀ g ∈ [false, true],
      let s := around (with5 { lineIn k st with lingering := g })
      let l := (used s (.riseEvent 5) 5).line 5
      let m := (used s (.fallEvent 5) 5).line 5
      l.prov.kind = k ∧ l.state = st ∧ l.lingering = g ∧ m.prov.kind = k ∧ m.state = st) ∧ quiet.roomy := by
  unfold State.roomy
  decide +kernel

theorem witness_BurstsAndDeadlines :
    (∀ k ∈ [LineKind.ringdown, .manual, .hoot], ∀ st ∈ [LState.unprovisioned, .idle, .ringingIn, .calling, .connected, .clearing,
        .held, .opened, .probing, .outOfService],
      let s := around (with5 { lineIn k st with ringTimeout := some 0, recallTime := some 0, holdOwner := some 2 })
      let l := (used s (.burstEvent 5 3200) 5).line 5
      let m := (used s (.ringTimeout 5) 5).line 5
      let r := (used s (.recallDeadlineExpiry 5) 5).line 5
      l.prov.kind = k ∧ l.state = st ∧ m.state = st ∧ m.ringTimeout = some 0 ∧ r.state = st ∧ r.recallTime = some 0
        ∧ r.holdOwner = some 2) := by decide +kernel

/-- Port 5 as given. -/
def port5 (q : Port) : State := around (({} : Part).setPort 5 q)

theorem witness_DebouncedChangeProduced :
    (let q := (port5 { provisioned := true, edge := .rise }).part.port 5;
      q.debounced = false ∧ q.debounced ≠ true ∧ q.provisioned = true ∧ q.outOfService = false ∧ q.kind = .ringdown
        ∧ q.edge = .rise)
      ∧ ((quiet.part.port 5).provisioned = false ∧ (quiet.part.port 5).debounced ≠ true)
      ∧ (let q := (port5 { provisioned := true, kind := .manual, debounced := true, inTimer := some 3200 }).part.port 5;
        q.debounced ≠ false ∧ q.kind = .manual ∧ q.inTimer = some 3200)
      ∧ ((port5 { provisioned := true, kind := .hoot }).part.port 5).kind = .hoot
      ∧ (((port5 { kind := .manual }).part.port 5).kind = .manual ∧ ((port5 { kind := .manual }).part.port 5).burst = 0)
      ∧ ((port5 { kind := .manual, burst := 1 }).part.port 5).burst ≠ 0 := by decide +kernel

/-- Highway 3 as given. -/
def highway3 (w : Highway) : State := around (({} : Part).setHighway 3 w)

theorem witness_HighwaysAndRecorderFollow :
    (∀ e ∈ quiet.part.events, ownHighwayEvent 3 e = false)
      ∧ (let s := (highway3 { gap := 8 }).part.raise (.highwayWindowEnd 3 16002)
        s.events = [.highwayWindowEnd 3 16002] ∧ (s.highway 3).state = .lost ∧ (s.highway 3).gap = 8)
      ∧ (∀ st ∈ [HwState.ok, .slipping, .lost], ((highway3 { state := st }).part.highway 3).state = st)
      ∧ ((highway3 { state := .ok, buffer := [silence] }).part.highway 3).buffer.length < 2
      ∧ 2 ≤ ((highway3 { state := .ok, buffer := [silence, silence] }).part.highway 3).buffer.length
      ∧ (15998 ≤ 16002 ∧ 16002 ≤ 16002 ∧ ¬ (15998 ≤ 16003 ∧ 16003 ≤ 16002) ∧ ¬ (15998 ≤ 15997 ∧ 15997 ≤ 16002))
      ∧ quiet.part.cu.recorderReady = false ∧ quiet.part.cu.recorderReady ≠ true
      ∧ quiet.part.cu.claimed < 1024 - quiet.part.cu.journal.length
      ∧ ¬ (journalled 1024 {}).cu.claimed < 1024 - (journalled 1024 {}).cu.journal.length := by decide +kernel

/-- HA of position 2 on lines 5 and 6, its tap open on channel 0. -/
def onTwoLines : Part :=
  let p := ((occupied .manual .connected).setLine 6 { lineIn .manual .connected with occupants := [(2, .ha)] }).setPosition 2
    { enabled := true, linesA := [5, 6] }
  let x : Tap := { position := 2, device := .ha, ref := 1, openTime := 0, lines := [5, 6], beyond := 0, gap := false }
  { p with cu := { taps := vset (Vector.replicate 32 none) 0 (some x) } }

/-- A highway's loss reports both leaves before the tap closes, and tells both lines (R60, R153). -/
theorem test_highway_lost_two_lines :
    let t := nextOf (exec (.lineHighwayLost 0) (around onTwoLines)) {}
    t.part.cu.journal.map (fun e => (e.kind, e.line)) = [(.lineLeave, some 5), (.lineLeave, some 6), (.tapClose, none)]
      ∧ (t.part.position 2).linesA = [] ∧ vget t.part.cu.taps 0 none = none
      ∧ t.link.tx.isSome = true ∧ t.link.notices.length = 1 := by decide +kernel

theorem witness_HighwayTakesItsLines :
    (∀ n, n / 48 = 0 → ((occupied .ringdown .connected).line n).damage = none)
      ∧ ((occupied .ringdown .connected).line 5).state ≠ .unprovisioned
      ∧ ((occupied .ringdown .connected).line 5).state ≠ .outOfService
      ∧ ((occupied .ringdown .connected).line 6).state = .unprovisioned
      ∧ (∀ n, n / 48 = 0 → ((with5 { lineIn .hoot .outOfService with oosCause := some .highway }).line n).damage = none)
      ∧ ((with5 { lineIn .hoot .outOfService with oosCause := some .highway }).line 5).oosCause = some .highway :=
  ⟨fun n _ => undamaged _ (by decide +kernel) n, by decide +kernel, by decide +kernel, by decide +kernel,
    fun n _ => undamaged _ (by decide +kernel) n, by decide +kernel⟩

/-! ### Witnesses: the reference frame -/

/-- A frame with nothing on the microphones. -/
def still (rrdy : Bool) : FrameInput := { mics := Vector.replicate 72 0, rrdy := rrdy, upsets := [], late := [] }

/-- Deadlines about to run out on line 5, an idle talker with a waiter in group 7, and an entry about to fall due. -/
def counting : Part :=
  { (with5 { lineIn .manual .held with recallTime := some 1, ringTimeout := some 1 }).setGroup 7
      { floor [] [8] with talkers := [{ position := 2, idle := 479999 }] } with
    tu := { floorTime := 7, schedule := [{ id := 1, due := 8, action := { kind := 6, args := [3] }, late := false }] }
    au := { rrdyHold := 31, scrub := 3071 } }

theorem witness_FrameAdvancesTimeAndCounts :
    (counting.events = [] ∧ (still true).upsets = [] ∧ (∀ n, (counting.line n).damage = none)
        ∧ counting.tu.steerRem = 0
        ∧ (counting.tu.schedule.takeWhile fun e => decide (e.due ≤ (counting.tu.floorTime + 1) % 2 ^ 48)) ≠ []
        ∧ (counting.line 5).recallTime = some 1 ∧ (counting.line 5).ringTimeout = some 1
        ∧ (counting.group 7).revoke ≠ 0 ∧ (counting.group 7).waiters ≠ [] ∧ (counting.group 8).waiters = []
        ∧ (∀ x ∈ (counting.group 7).talkers, x.idle + 1 = 16000 * (counting.group 7).revoke)
        ∧ (still true).rrdy ≠ counting.au.rrdy ∧ 31 ≤ counting.au.rrdyHold ∧ counting.cc.digest = none)
      ∧ ((steering (-1)).tu.steerRem ≠ 0 ∧ (steering (-1)).tu.steerCount = 255 ∧ (steering (-1)).events = []
        ∧ (∀ n, ((steering (-1)).line n).damage = none))
      ∧ ((digesting 534).cc.digest = some { next := 534, crc := 0x12345678 }
        ∧ (digesting 535).cc.digest = some { next := 535, crc := 0x12345678 })
      ∧ ((quiet.part.group 7).revoke ≠ 0 ∧ (({} : Part).setGroup 7 { revoke := 0 }).events = [])
      ∧ (counting.au.rrdyFresh = false ∧ (∀ n, quiet.link.phase ≠ .starting n))
      ∧ (({ au := { rrdyFresh := true } } : Part).events = [] ∧ ∀ n, (({ au := { rrdyFresh := true } } : Part).line n).damage = none) :=
  ⟨⟨rfl, rfl, undamaged _ (by decide +kernel), by decide +kernel⟩, ⟨by decide +kernel, by decide +kernel, rfl,
    undamaged _ (by decide +kernel)⟩, by decide +kernel, by decide +kernel, ⟨rfl, fun _ h => (by cases h)⟩, rfl,
    undamaged _ (by decide +kernel)⟩

theorem witness_FrameMovesPortsPlayersHighways :
    let q := (port5 { kind := .manual, sampling := true, debounce := 1, stable := 15, outLead := true, burst := 1 }).part.port 5
    (quiet.part.events = [] ∧ quiet.part.cc.digest = none)
      ∧ (q.sampling = true ∧ 16 * q.debounce ≤ q.stable + 1 ∧ q.kind = .manual ∧ q.outLead = true ∧ q.burst = 1)
      ∧ (((playing 32 true).player 7).playing = true ∧ ((playing 32 true).player 7).sample = 31)
      ∧ (let w := (highway3 { state := .ok, window := 15999, gap := 7 }).part.highway 3
        16000 ≤ w.window + 1 ∧ w.state ≠ .lost ∧ 8 ≤ w.gap + 1) := by decide +kernel

/-- The damage that a frame finds in word 9. -/
def found9 (p : Part) (i : FrameInput) : Option MixDamage :=
  (i.upsets.foldl Part.strike p).mx.damage.find? fun x => x.index == 9

theorem witness_FrameRampsCoefficients :
    ((damagedMix true false).mx.law ∧ (damagedMix false false).mx.law ∧ (damagedMix true true).mx.law)
      ∧ ((damagedMix true false).events = [] ∧ (damagedMix true false).cc.digest = none
        ∧ (∀ g, g < 32 → ∀ b ∈ (damagedMix true false).busTalkers g, b.position < 24)
        ∧ found9 (damagedMix true false) (still false) = some { index := 9, double := true, syndrome := 3 }
        ∧ found9 (damagedMix false false) (still false) = some { index := 9, double := false, syndrome := 3 }
        ∧ found9 (damagedMix false false) { still false with upsets := [.mix 9 true 5] }
          = some { index := 9, double := true, syndrome := 5 })
      ∧ ((vget (heard17 { active := true, below := 3199 }).mx.detectors 17 {}).active = true
        ∧ (vget (heard17 { active := true, below := 3199 }).mx.detectors 17 {}).below = 3199) :=
  ⟨by unfold MX.law; decide +kernel, by decide +kernel, by decide +kernel⟩

/-- A double-bit error found on use: the entry is passed over from the same frame, and the offer says USE (R123, R192). -/
theorem test_use_check_poisons :
    let q := (damagedMix true false).stage4
    ((q.mixList 10).map fun e => (e.poisoned, e.target)) = [(true, 0)] ∧ q.mx.damage = []
      ∧ q.events = [.faultOffer { rank := .high, store := .mix, index := 9, syndrome := 3, foundBy := .use }] := by
  decide +kernel

theorem witness_FrameSumsOutputs :
    (probing .toneOn 3).events = [] ∧ (probing .toneOn 3).cc.digest = none
      ∧ ((probing .toneOn 3).probeOf 5).isSome = true
      ∧ (∀ r ∈ (probing .toneOn 3).au.probes, 102 ≠ 96 + r.line ∨ 288 ≤ 102)
      ∧ vget (metering { source := 303, count := 4294967294, sum := 5, counting := true }).au.meters 3 none
        = some { source := 303, count := 4294967294, sum := 5, counting := true }
      ∧ vget (metering { source := 0, count := 9, sum := 5, counting := false }).au.meters 3 none
        = some { source := 0, count := 9, sum := 5, counting := false } := by decide +kernel

/-! ### Ill-formed terms are refused -/

theorem test_wf_refuses :
    (([.readLine 256 0, .powerOn false false true 0, .powerOn false false true 801, .idleRevoke 32 0, .idleRevoke 0 24,
      .cueBlockBoundary 8, .probePhaseChange 192, .probeEnd 192, .debouncedChange 192 true, .riseEvent 192, .fallEvent 192,
      .outgoingBurstEnd 192, .recallDeadlineExpiry 192, .ringTimeout 192, .scrubLineCheck 192, .burstEvent 192 3200,
      .burstEvent 0 3199, .burstEvent 0 32001, .meterCountFull 4, .detectorHoldExpiry 264, .activityEvent 304 true,
      .highwayFrameArrival 4 silence, .highwayGapLoss 4, .lsuHighwayLoss 4, .lsuHighwayReturn 4, .lineHighwayLost 4,
      .lineHighwayRestored 4, .highwayWindowEnd 4 0, .highwayWindowEnd 0 65536, .scrubMixCheck 3072,
      .faultOffer { rank := .low, store := .mix, index := 3072, syndrome := 1, foundBy := .use },
      .faultOffer { rank := .low, store := .line, index := 192, syndrome := 1, foundBy := .use },
      .faultOffer { rank := .low, store := .line, index := 0, syndrome := 0, foundBy := .use },
      .referenceFrame { still true with upsets := [.mix 3072 false 1] },
      .referenceFrame { still true with upsets := [.mix 0 false 0] },
      .referenceFrame { still true with late := [.mix 3072 true 1] },
      .referenceFrame { still true with upsets := [.line 192 false 1 LineProv.blank] },
      .referenceFrame { still true with upsets := [.line 0 true 0 LineProv.blank] }] : List Instr).all fun i => !i.wf)
      = true := by decide +kernel

theorem test_wf_admits :
    (([.readLine 255 1000, .powerOn true true false 800, .burstEvent 191 32000, .referenceFrame (still false), .linkBreak,
      .scrubMixCheck 3071, .highwayWindowEnd 3 65535] : List Instr).all Instr.wf) = true := by decide +kernel

/-! ### Figures of the spec -/

/-- The nine ASCII digits of the check values in R21 and R197. -/
def digits : List Byte := [0x31, 0x32, 0x33, 0x34, 0x35, 0x36, 0x37, 0x38, 0x39]

theorem test_crc32_check_value : crc32Final (crc32Feed crc32Start digits) = 0xCBF43926 := by decide +kernel

theorem test_crc16_check_value : crc16 digits = 0x29B1 := by decide +kernel

/-- R116: each coefficient c is 4096 × 10^((e − 64)/40) to the nearest integer, that is 2c − 1 ≤ 8192 × 10^((e − 64)/40) < 2c
+ 1, taken here to the 40th power. -/
theorem test_coefficient_table :
    coefTable.length = 77 ∧ coefOf 0 = 0 ∧ ((List.range 76).all fun k =>
      let e := k + 1
      let c := coefOf e
      decide ((2 * c - 1) ^ 40 * 10 ^ 64 ≤ 8192 ^ 40 * 10 ^ e ∧ 8192 ^ 40 * 10 ^ e < (2 * c + 1) ^ 40 * 10 ^ 64)) = true := by
  decide +kernel

/-- The two wide values of R109. -/
theorem test_round12 : round12 (-20477952) = -4999 ∧ round12 32770048 = 8001 := by decide +kernel

/-- R186's tone: 16 entries whose magnitudes sum to 104,184 over a period (section 10.6). -/
theorem test_tone_period : (toneTable.map Int.natAbs).sum = 104184 ∧ toneTable.length = 16 := by decide +kernel

/-- The three probes of section 10.6. -/
theorem test_probe_verdicts :
    ({ line := 75, window := 1600, phase := .toneOff, done := 1600, onSum := 10314216, offSum := 104184 } : Probe).verdict
        = .pass 6446 65
      ∧ ({ line := 75, window := 1600, phase := .toneOff, done := 1600, onSum := 10210032, offSum := 208368 } : Probe).verdict
        = .fail 6381 130
      ∧ ({ line := 75, window := 16000, phase := .toneOff, done := 16000, onSum := 103975632, offSum := 208368 }
          : Probe).verdict = .pass 6498 13 := by decide +kernel

/-! ### Worked cases of the spec -/

/-- Group 5 with talkers at 2 and 9 at coefficient 4096, their SK samples 8000 and −5000 (section 6.9). -/
def bus5 : Sources :=
  { part := { mx := { talkers := vset (Vector.replicate 32 []) 5 [{ position := 2, coef := 4096 }, { position := 9, coef := 4096 }] } }
    mics := vset (vset (Vector.replicate 72 0) 8 8000) 29 (-5000) }

theorem test_bus_heard_three_ways : bus5.bus 5 (some 2) = -5000 ∧ bus5.bus 5 (some 9) = 8000 ∧ bus5.bus 5 (some 4) = 3000 := by
  decide +kernel

/-- Group 7 full of shouting (section 6.9): the own term leaves the exact sum before the clamp. -/
theorem test_full_bus :
    let x : Sources :=
      { part := { mx := { talkers := vset (Vector.replicate 32 []) 7 ([10, 11, 12].map fun n => { position := n, coef := 8173 }) } }
        mics := vset (vset (vset (Vector.replicate 72 0) 32 32000) 35 32000) 38 32000 }
    x.bus 7 (some 13) = 131071 ∧ x.bus 7 (some 10) = 127703 := by decide +kernel

/-- The earpiece with a cue route, and the two hoots at full level (section 6.9). -/
theorem test_sums : round12 (12000 * 4096 + -3000 * 2053) = 10496 ∧ limit16 (round12 (20000 * 8173 + 15000 * 8173)) = 32767 := by
  decide +kernel

/-- An earpiece trimmed by 4 (section 6.9), and a duck of 12 on code 66. -/
theorem test_effective_codes :
    coefOf (effectiveCode 64 4 0) = 5157 ∧ coefOf (effectiveCode 52 4 0) = 2584 ∧ effectiveCode 64 2 12 = 54
      ∧ effectiveCode 0 12 0 = 0 ∧ ramp 2053 2560 = 2496 ∧ ramp 2053 2112 = 2053 := by decide +kernel

/-- A talker going quiet (section 6.9): the first frame, and the two sides of 1024. -/
theorem test_envelope_decay : envelopeStep 1500 0 = 1499 ∧ envelopeStep 1024 0 = 1023 ∧ envelopeStep 1023 0 = 1022 := by
  decide +kernel

/-- Steering by +3 and by −2 (section 9.4): the 256th frame. -/
theorem test_steering :
    ({ floorTime := 2000255, steerRem := 3, steerCount := 255 } : TU).advance = { floorTime := 2000257, steerRem := 2 }
      ∧ ({ floorTime := 3000255, steerRem := -2, steerCount := 255 } : TU).advance = { floorTime := 3000255, steerRem := -1 } := by
  decide +kernel

/-- Priority places in group 5 (section 4.8): 20 goes in front of 4 and 17, and 22 between 20 and 4. -/
theorem test_waiting_places :
    let g : Group := { members := [(4, false), (17, false), (20, true), (22, true)], waiters := [4, 17] }
    (g.enqueue 20).waiters = [20, 4, 17] ∧ ((g.enqueue 20).enqueue 22).waiters = [20, 22, 4, 17] := by decide +kernel

/-- The refused load of section 7.6: from block 6 the third of three blocks lies at distance 33. -/
theorem test_cue_window :
    let q : Player := { playing := true, block := 6 }
    q.firstBlock 1 31 = some 37 ∧ ((loadBlocks 37 3).map q.admits) = [true, true, false] := by decide +kernel

/-- A seize of an idle ringdown line whose far lead is down calls, and one whose far lead is up connects (R63). -/
theorem test_seize_moves :
    (nextOf (exec (.seize 1 5 2 0) (around (with5 (lineIn .ringdown .idle)))) {}).part.cc.lines[5].state = .calling
      ∧ (nextOf (exec (.seize 1 5 2 0) (around ((with5 (lineIn .ringdown .idle)).setPort 5 { debounced := true }))) {}).part.cc.lines[5].state
        = .connected := by decide +kernel

/-- The reset state: floor time 0, every highway LOST, no latch set, nothing queued and READY to come (R165, R178, R204,
R207). -/
theorem test_reset :
    State.reset.link.notices = [] ∧ State.reset.link.serial = 0 ∧ State.reset.link.phase ≠ .running
      ∧ (State.reset.part.au.highways.toList.all fun w => w.state == .lost) = true ∧ State.reset.part.tu.floorTime = 0
      ∧ (State.reset.part.conds.toList.map Cond.latch).countP id = 0 ∧ State.reset.pending = [] := by decide +kernel

/-- READY on the first frame after power-on: its floor time is 1, an arrival before the frame counts, and RRDY's first level,
high, has reached CU, so that only HIGHWAY_LOST(0) to (3) follow (R165, R179, R184, R207). -/
theorem test_ready_on_first_frame :
    let t := ([.powerOn true false false 1, .highwayFrameArrival 1 silence, .referenceFrame (still true)] : List Instr).foldl
      (fun s i => nextOf (exec i s) s) {}
    t.link.phase = .running ∧ t.link.notices.map QNotice.body = [.condition 0, .condition 1, .condition 2, .condition 3]
      ∧ (match t.link.tx with | some (.notice q) => (q.serial, q.time) | _ => (9, 9)) = (0, 1)
      ∧ (t.part.highway 1).arrivals = 1 := by decide +kernel

/-- Damage that strikes a word in use after the frame's work is found by the frame's scrub event, with found-by SCRUB, before the
next frame uses the word (R191). -/
theorem test_scrub_finds_first :
    let p : Part := { damagedMix true false with au := { scrub := 9 } }
    let q := ([.mix 9 true 5] : List Upset).foldl Part.strike p.scrubFrame
    q.events = [.scrubMixCheck 9] ∧ (nextOf (exec (.scrubMixCheck 9) (around q)) {}).part.events
      = [.faultOffer { rank := .high, store := .mix, index := 9, syndrome := 5, foundBy := .scrub }] := by decide +kernel

/-! ### Events that wait -/

/-- A CUE_STOP taken after a frame that offered the last sample of a SINGLE block: the block is spent and the pointer stands
at the start of the next (R131, R138). -/
theorem test_cue_stop_after_boundary :
    let p : Part := { playing 32 false with events := [.cueBlockBoundary 7] }
    let t := nextOf (exec (.cueStop 1 7) (around p)) {}
    (t.part.player 7).block = 0 ∧ (t.part.player 7).sample = 0 ∧ (t.part.player 7).playing = false ∧ t.part.events = [] := by
  decide +kernel

/-- The far lead less the change whose event waits: up before a MANUAL fall, down before a rise (R31). -/
theorem test_far_lead_before_event :
    ({ events := [.burstEvent 5 3200] } : Part).farLead 5 = true ∧ ({ events := [.burstEvent 6 3200] } : Part).farLead 5 = false
      ∧ ({ ({} : Part).setPort 5 { debounced := true } with events := [.riseEvent 5, .fallEvent 5] } : Part).farLead 5
        = false := by decide +kernel

/-- An arrival after a frame that returned the highway and lost it again finds it LOST (R179). -/
theorem test_arrival_after_gap :
    let t := nextOf (exec (.highwayFrameArrival 3 silence)
      (around ((highway3 { gap := 8 }).part.raise (.highwayWindowEnd 3 16002)))) {}
    (t.part.highway 3).state = .lost ∧ (t.part.highway 3).arrivals = 1 ∧ (t.part.highway 3).gap = 0
      ∧ t.part.events = [.lsuHighwayReturn 3, .lineHighwayRestored 3, .lsuHighwayLoss 3, .lineHighwayLost 3] := by
  decide +kernel

/-- No command is taken in a break (R198), and a RESTART is taken with its frame though a command of CP's waits (R206). -/
theorem test_break_and_restart_taken :
    (nextOf (exec (.status 1) { link := { inBreak := true } }) {}).link.replies = []
      ∧ (nextOf (exec (.restart 2) (around { events := [.status 1] })) {}).link.phase = .restartTaken := by decide +kernel

/-- From the moment a restart begins no action is handed over (R206). -/
theorem test_no_action_in_restart :
    (({ steering 1 with events := [.restartBegin] } : Part).tick).tu.handed = [] ∧ ((steering 1).tick).tu.handed.length = 1 := by
  decide +kernel

/-- No row of the table gives bits, so no word spells a command. -/
theorem test_no_word_spells_a_command : decodeTableWord 32 0xFFFFFFFF = none ∧ decodeTableWord 0 0 = none := by decide +kernel

end Sys2Proof.Tests
end

section
/-! Proofs of the statements about the machine as a whole: the numbers of sources and outputs (R1, R2), and that a refused
command changes nothing (R4, R200). -/

namespace Sys2Proof.Machine

open Sys2Proof

/-! ### What a number stands for in the mix (R1, R113, R120) -/

theorem heard_line (x : Sources) {n : Nat} (h : n < 192) (out : Nat) : x.heard out n = lineReceive x.part n := by
  have hbus : ¬(264 ≤ n ∧ n < 296) := by omega
  simp only [Sources.heard, if_neg hbus, Sources.value, if_pos h]

theorem heard_micSource (x : Sources) {pos : Nat} (h : pos < 24) (d : Dev) (out : Nat) :
    x.heard out (micSource pos d) = (vget x.mics (3 * pos + d.num) 0).toInt := by
  have hd : d.num < 3 := by cases d <;> decide
  have hbus : ¬(264 ≤ micSource pos d ∧ micSource pos d < 296) := by unfold micSource; omega
  have hline : ¬micSource pos d < 192 := by unfold micSource; omega
  have hmic : micSource pos d < 264 := by unfold micSource; omega
  have hword : micSource pos d - 192 = 3 * pos + d.num := by unfold micSource; omega
  simp only [Sources.heard, if_neg hbus, Sources.value, if_neg hline, if_pos hmic, hword]

theorem heard_groupSource (x : Sources) {g : Nat} (h : g < 32) (out : Nat) :
    x.heard out (groupSource g) = x.bus g (outputOwner out) := by
  have hbus : 264 ≤ groupSource g ∧ groupSource g < 296 := by unfold groupSource; omega
  have hword : groupSource g - 264 = g := by unfold groupSource; omega
  simp only [Sources.heard, if_pos hbus, hword]

theorem heard_cueSource (x : Sources) (k out : Nat) :
    x.heard out (cueSource k) = (x.part.player k).offered.toInt := by
  have hbus : ¬(264 ≤ cueSource k ∧ cueSource k < 296) := by unfold cueSource; omega
  have hline : ¬cueSource k < 192 := by unfold cueSource; omega
  have hmic : ¬cueSource k < 264 := by unfold cueSource; omega
  have hgroup : ¬cueSource k < 296 := by unfold cueSource; omega
  have hword : cueSource k - 296 = k := by unfold cueSource; omega
  simp only [Sources.heard, if_neg hbus, Sources.value, if_neg hline, if_neg hmic, if_neg hgroup, hword]

/-- Settles O3. -/
theorem sourceNumbers : Obligations.SourceNumbers :=
  ⟨fun _ => ⟨rfl, rfl, rfl⟩, fun _ => rfl, fun _ => rfl, rfl, rfl, fun x =>
    ⟨fun _ h out => heard_line x h out, fun _ d out h => heard_micSource x h d out,
      fun _ out h => heard_groupSource x h out, heard_cueSource x⟩⟩

/-! ### What is derived for an output's number (R2, R93) -/

/-- The output number of an enabled position gives its position and its place there back. -/
theorem posOutput_div_mod {pos k : Nat} (hpos : pos < 24) (hk : k < 4) :
    4 * pos + k < 96 ∧ (4 * pos + k) / 4 = pos ∧ (4 * pos + k) % 4 = k := by omega

theorem derive_earOutput (p : Part) {pos : Nat} {d : Dev} (hpos : pos < 24) (hd : d ≠ .sk)
    (h : (p.position pos).enabled = true) : derive p (earOutput pos d) = mergeWants (earWants p pos d) := by
  cases d with
  | ha =>
    obtain ⟨hout, hdiv, hmod⟩ := posOutput_div_mod hpos (k := 0) (by decide)
    simp only [Nat.add_zero] at hout hdiv hmod
    simp only [derive, earOutput, if_pos hout, hdiv, hmod, h, if_true]
  | hb =>
    obtain ⟨hout, hdiv, hmod⟩ := posOutput_div_mod hpos (k := 1) (by decide)
    simp only [derive, earOutput, if_pos hout, hdiv, hmod, h, if_true]
  | sk => exact absurd rfl hd

theorem derive_sideOutput (p : Part) {pos : Nat} (side : Side) (hpos : pos < 24) (h : (p.position pos).enabled = true) :
    derive p (sideOutput pos side) = mergeWants (sideWants p pos side) := by
  cases side with
  | sl =>
    obtain ⟨hout, hdiv, hmod⟩ := posOutput_div_mod hpos (k := 2) (by decide)
    simp only [derive, sideOutput, Side.num, if_pos hout, hdiv, hmod, h, if_true]
  | sr =>
    obtain ⟨hout, hdiv, hmod⟩ := posOutput_div_mod hpos (k := 3) (by decide)
    simp only [derive, sideOutput, Side.num, if_pos hout, hdiv, hmod, h, if_true]

theorem derive_sendOutput (p : Part) {n : Nat} (h : n < 192) : derive p (sendOutput n) = mergeWants (sendWants p n) := by
  have hpos : ¬sendOutput n < 96 := by unfold sendOutput; omega
  have hsend : sendOutput n < 288 := by unfold sendOutput; omega
  have hline : sendOutput n - 96 = n := by unfold sendOutput; omega
  simp only [derive, if_neg hpos, if_pos hsend, hline]

theorem derive_recOutput (p : Part) (c : Nat) : derive p (recOutput c) = mergeWants (recWants p c) := by
  have hpos : ¬recOutput c < 96 := by unfold recOutput; omega
  have hsend : ¬recOutput c < 288 := by unfold recOutput; omega
  have hchannel : recOutput c - 288 = c := by unfold recOutput; omega
  simp only [derive, if_neg hpos, if_neg hsend, hchannel]

/-- Settles O4. -/
theorem outputNumbers : Obligations.OutputNumbers :=
  ⟨fun _ => ⟨rfl, rfl, rfl, rfl⟩, fun _ => rfl, fun _ => rfl, rfl, rfl, rfl, fun p =>
    ⟨fun _ hpos h => ⟨derive_earOutput p hpos (by decide) h, derive_earOutput p hpos (by decide) h,
        derive_sideOutput p .sl hpos h, derive_sideOutput p .sr hpos h⟩,
      fun _ h => derive_sendOutput p h, fun c _ => derive_recOutput p c⟩⟩

/-! ### The one reply to a command

A tag that nothing answers yet is answered once in the step that takes its command, so that a reply under it found afterwards
is the one the command's owner gave (R199). -/

/-- Whatever the link has queued or is sending in reply to a tag is this answer. -/
def Link.TellsOnly (l : Link) (tag : Nat) (a : Result × Info) : Prop :=
  (∀ x ∈ l.replies, x.tag = tag → ∀ b, x.answer = some b → b = a)
    ∧ ∀ k r i, l.tx = some (.reply tag k r i) → (r, i) = a

theorem tellsOnly_pump {l : Link} {tag : Nat} {a : Result × Info} (h : l.TellsOnly tag a) : l.pump.TellsOnly tag a := by
  obtain ⟨hqueue, hsent⟩ := h
  rcases pump_cases l with hp | ⟨t, k, r, i, rest, _, hr, hp⟩ | ⟨n, rest, _, _, hp⟩ <;> rw [hp]
  · exact ⟨hqueue, hsent⟩
  · rw [hr] at hqueue
    refine ⟨fun x hx => hqueue x (List.mem_cons_of_mem _ hx), fun k' r' i' htx => ?_⟩
    cases htx
    exact hqueue _ List.mem_cons_self rfl _ rfl
  · exact ⟨hqueue, fun _ _ _ htx => by cases htx⟩

theorem tellsOnly_queueNotice {l : Link} {tag : Nat} {a : Result × Info} (now : Nat) (n : Notice)
    (h : l.TellsOnly tag a) : (l.queueNotice now n).TellsOnly tag a := by
  unfold Link.queueNotice
  split
  · exact h
  · exact tellsOnly_pump h

theorem tellsOnly_queueAll {l : Link} {tag : Nat} {a : Result × Info} (now : Nat) (ns : List Notice)
    (h : l.TellsOnly tag a) : (ns.foldl (Link.queueNotice now) l).TellsOnly tag a := by
  induction ns generalizing l with
  | nil => exact h
  | cons n rest ih => exact ih (tellsOnly_queueNotice now n h)

theorem tellsOnly_flushOp {s : State} {tag : Nat} {a : Result × Info} (h : s.link.TellsOnly tag a) :
    s.flushOp.link.TellsOnly tag a := by
  rcases flushOp_cases s with e | ⟨_, _, _, _, e⟩ | ⟨_, _, n, _, _, e⟩ <;> rw [e]
  · exact h
  · exact h
  · exact tellsOnly_queueNotice _ n h

theorem tellsOnly_flushOps {s : State} {tag : Nat} {a : Result × Info} (h : s.link.TellsOnly tag a) :
    s.flushOps.link.TellsOnly tag a :=
  tellsOnly_flushOp (tellsOnly_flushOp (tellsOnly_flushOp (tellsOnly_flushOp h)))

/-- A place after the answer is one from before, or carries the answer. -/
theorem mem_of_mem_answerPlace {tag : Nat} {kind : ReplyKind} {a : Result × Info} {ps : List Place} {x : Place}
    (h : x ∈ answerPlace tag kind a ps) : x ∈ ps ∨ x.answer = some a := by
  induction ps with
  | nil => cases h
  | cons p rest ih =>
    unfold answerPlace at h
    split at h
    · rcases List.mem_cons.mp h with rfl | h
      · exact .inr rfl
      · exact .inl (List.mem_cons_of_mem _ h)
    · rcases List.mem_cons.mp h with rfl | h
      · exact .inl List.mem_cons_self
      · exact (ih h).imp_left (List.mem_cons_of_mem _)

theorem tellsOnly_answer {l : Link} {tag : Nat} {r : Result} {i : Info} (kind : ReplyKind)
    (h : l.TellsOnly tag (r, i)) : (l.answer tag kind r i).TellsOnly tag (r, i) := by
  refine tellsOnly_pump ⟨fun x hx htag b hb => ?_, h.2⟩
  rcases mem_of_mem_answerPlace hx with hx | ha
  · exact h.1 x hx htag b hb
  · exact Option.some.inj (hb.symm.trans ha)

theorem conclude_tellsOnly {s : State} {tag : Nat} (cmd : Cmd) {a : Answered} {after : Link → Link}
    (hafter : ∀ l, (after l).replies = l.replies ∧ (after l).tx = l.tx)
    (h : s.link.TellsOnly tag (a.result, a.info)) :
    (s.conclude tag cmd a after).link.TellsOnly tag (a.result, a.info) := by
  refine tellsOnly_flushOps (tellsOnly_queueAll _ _ (tellsOnly_answer _ ?_))
  have hearly := tellsOnly_queueAll a.part.tu.floorTime a.part.early h
  unfold Link.TellsOnly
  rw [(hafter _).1, (hafter _).2]
  exact hearly

/-- A reply under the tag is the answer. -/
theorem replied_eq {t : State} {tag : Nat} {cmd : Cmd} {r : Result} {i : Info} {a : Result × Info}
    (h : t.link.TellsOnly tag a) (hr : Replied t tag cmd r i) : (r, i) = a := by
  rcases hr with htx | hmem
  · exact h.2 _ _ _ htx
  · exact h.1 _ hmem rfl _ rfl

/-- A tag that nothing answers yet is told nothing but the answer to come, the command's own place being still unanswered. -/
theorem handed_tellsOnly {s : State} {tag : Nat} (c : Instr) (a : Result × Info)
    (hqueue : ∀ x ∈ s.link.replies, x.tag = tag → x.answer = none)
    (hsent : ∀ k r i, s.link.tx ≠ some (.reply tag k r i)) : (s.handed c).link.TellsOnly tag a := by
  have hbefore : s.link.TellsOnly tag a :=
    ⟨fun x hx htag b hb => (by rw [hqueue x hx htag] at hb; cases hb), fun k r i htx => absurd htx (hsent k r i)⟩
  unfold State.handed
  split
  · exact hbefore
  · split
    · exact hbefore
    · refine ⟨fun x hx htag b hb => ?_, hbefore.2⟩
      rcases List.mem_append.mp hx with hx | hx
      · exact hbefore.1 x hx htag b hb
      · rw [List.mem_singleton.mp hx] at hb; cases hb

/-- The reply found after a command that was taken, its tag unanswered before, is its owner's answer (R199). -/
theorem hostRun_reply {c : Instr} {s : State} {tag : Nat} {cmd : Cmd} {r : Result} {i : Info}
    {body : Link → Part → Answered} {after : Link → Link} (hc : c.host? = some (tag, cmd)) (ht : s.takes c = true)
    (hqueue : ∀ x ∈ s.link.replies, x.tag = tag → x.answer = none)
    (hsent : ∀ k r i, s.link.tx ≠ some (.reply tag k r i))
    (hafter : ∀ l, (after l).replies = l.replies ∧ (after l).tx = l.tx)
    (hr : Replied (hostRun c body after s) tag cmd r i) :
    r = (body (s.handed c).link (s.part.took c)).result := by
  obtain ⟨t, k, hc', hrun, hpart, _⟩ := hostRun_takes ht body after
  rw [hc] at hc'
  cases hc'
  rw [hrun, State.runOwner, hpart] at hr
  exact congrArg Prod.fst (replied_eq (conclude_tellsOnly cmd hafter (handed_tellsOnly c _ hqueue hsent)) hr)

/-! ### Refusals of the owners -/

/-- An owner's refusal leaves the blocks as it found them (R4). -/
def Answered.KeepsIfRefused (a : Answered) (p : Part) : Prop := a.result.refusal = true → a.part = p

@[simp] theorem refuse_keeps (p : Part) (r : Result) : (p.refuse r).KeepsIfRefused p := fun _ => rfl

/-- OK, ACCEPTED and UNSETTLED refuse nothing (R200). -/
theorem keeps_of_not_refusal {a : Answered} (p : Part) (h : a.result.refusal = false) : a.KeepsIfRefused p :=
  fun hr => by rw [h] at hr; cases hr

@[simp] theorem accept_keeps (p q : Part) : q.accept.KeepsIfRefused p := keeps_of_not_refusal p rfl

@[simp] theorem ok_keeps (p q : Part) (i : Info) :
    Answered.KeepsIfRefused { part := q, result := .ok, info := i } p := keeps_of_not_refusal p rfl

@[simp] theorem accepted_keeps (p q : Part) (i : Info) :
    Answered.KeepsIfRefused { part := q, result := .accepted, info := i } p := keeps_of_not_refusal p rfl

/-- A check of a command: it keeps what both of its branches keep. -/
@[simp] theorem ite_keeps (c : Prop) [Decidable c] (a b : Answered) (p : Part) :
    (if c then a else b).KeepsIfRefused p ↔ (c → a.KeepsIfRefused p) ∧ (¬c → b.KeepsIfRefused p) := by
  split <;> simp [*]

/-- A sound record is read by an event that has told nothing yet without any change (R61, R193). -/
theorem useLine_unchanged {p : Part} {n : Nat} (hd : (p.line n).damage = none) (ho : p.outbox = []) : p.useLine n = p := by
  rw [useLine_sound p hd, ho, List.append_nil, ← ho]

section Owners

variable {p : Part}

/-! #### The floor plan -/

theorem definePositionBody_keeps (pos : Nat) (a : PositionArgs) : (definePositionBody pos a p).KeepsIfRefused p := by
  unfold definePositionBody
  split
  · simp only [ite_keeps, refuse_keeps, implies_true, true_and]
    intro _ _ _
    split <;> simp
  · exact refuse_keeps p _

theorem setDeviceGainBody_keeps (pos device which code : Nat) :
    (setDeviceGainBody pos device which code p).KeepsIfRefused p := by
  unfold setDeviceGainBody
  split
  · exact refuse_keeps p _
  · split
    · exact refuse_keeps p _
    · split <;> simp

theorem setTrimBody_keeps (pos output : Nat) (t : Int) : (setTrimBody pos output t p).KeepsIfRefused p := by
  unfold setTrimBody
  split
  · exact refuse_keeps p _
  · split <;> simp

theorem defineSpeakerBody_keeps (pos k targetKind target side code priority listen : Nat) :
    (defineSpeakerBody pos k targetKind target side code priority listen p).KeepsIfRefused p := by
  unfold defineSpeakerBody
  split
  · simp only [ite_keeps, refuse_keeps, implies_true, true_and]
    intro _ _ _ _
    split <;> simp
  · exact refuse_keeps p _

theorem defineGroupBody_keeps (g : Nat) (members : List (Nat × Nat)) (talkCode revoke : Nat) :
    (defineGroupBody g members talkCode revoke p).KeepsIfRefused p := by
  simp [defineGroupBody]

theorem cueRouteBody_keeps (route : Nat) (player : Option Nat) (output code : Nat) :
    (cueRouteBody route player output code p).KeepsIfRefused p := by
  unfold cueRouteBody
  split
  · exact refuse_keeps p _
  · dsimp only
    split <;> simp

theorem setGuardBody_keeps (cls level : Nat) : (setGuardBody cls level p).KeepsIfRefused p := by
  unfold setGuardBody
  split
  · exact refuse_keeps p _
  · simp

theorem digestBody_keeps (tag : Nat) : (digestBody tag p).KeepsIfRefused p := by
  unfold digestBody
  split <;> simp

theorem readPositionBody_keeps (pos : Nat) : (readPositionBody pos p).KeepsIfRefused p := by
  simp [readPositionBody]

theorem readLineBody_keeps (n : Nat) : (readLineBody n p).KeepsIfRefused p := by
  simp [readLineBody]

/-! #### Handsets, speakers and mixes -/

/-- A seize that a check, CU or MX refuses finds the part as it was: what CU answered and the relation are dropped (R62,
R149). -/
theorem seizeLine_keeps (n pos : Nat) (d : Dev) : (seizeLine n pos d p).KeepsIfRefused p := by
  unfold seizeLine
  split
  · exact refuse_keeps p _
  · dsimp only
    split
    · exact refuse_keeps p _
    · split <;> simp

theorem speakerListenBody_keeps (pos k onOff : Nat) : (speakerListenBody pos k onOff p).KeepsIfRefused p := by
  unfold speakerListenBody
  split
  · exact refuse_keeps p _
  · simp only [ite_keeps, refuse_keeps, accept_keeps, implies_true, true_and, and_true]
    intro _ _ _
    split <;> simp

theorem speakerGainBody_keeps (pos k code : Nat) : (speakerGainBody pos k code p).KeepsIfRefused p := by
  simp [speakerGainBody]

theorem groupRequest_keeps (pos g : Nat) (through : Option Nat) : (groupRequest p pos g through).KeepsIfRefused p := by
  simp [groupRequest]

/-- A press that MX cannot fit gives the place in the hoot back (R76, R102). -/
theorem hootPress_keeps (pos k n : Nat) : (hootPress pos k n p).KeepsIfRefused p := by
  unfold hootPress
  simp only [ite_keeps, refuse_keeps, implies_true, true_and]
  intro _ _
  split <;> simp

/-- From its target on a release is never refused (R77, R82). -/
theorem talkRelease_keeps (pos : Nat) (t : SkTarget) : (talkRelease pos t p).KeepsIfRefused p := by
  unfold talkRelease
  cases t <;> simp [hootRelease, groupReleaseTalk]

theorem speakerTalkReleaseBody_keeps (pos k : Nat) : (speakerTalkReleaseBody pos k p).KeepsIfRefused p := by
  unfold speakerTalkReleaseBody
  split
  · exact refuse_keeps p _
  · split
    · exact accept_keeps p p
    · exact talkRelease_keeps pos _

theorem groupTalkReleaseBody_keeps (pos g : Nat) : (groupTalkReleaseBody pos g p).KeepsIfRefused p := by
  simp [groupTalkReleaseBody, talkRelease_keeps]

theorem refreshOutputBody_keeps (out : Nat) : (refreshOutputBody out p).KeepsIfRefused p := by
  simp [refreshOutputBody]

theorem readMixBody_keeps (out : Nat) : (readMixBody out p).KeepsIfRefused p := by
  simp [readMixBody]

/-! #### Cue players -/

/-- A CUE_LOAD that is refused: its arguments are bad and nothing changes, or its blocks lie outside the write window and the
frame's advance of its player has been finished (R133, R134, R136; log 20). -/
theorem cueLoadBody_refused (k addressing value count : Nat) (samples : List Sample) :
    (cueLoadBody k addressing value count samples p).result.refusal = true →
      (cueLoadBody k addressing value count samples p).part = p
        ∨ (cueLoadBody k addressing value count samples p).result = .window
          ∧ (cueLoadBody k addressing value count samples p).part = p.finishAdvance k := by
  unfold cueLoadBody
  dsimp only
  split
  · exact fun _ => .inl rfl
  · split
    · exact fun _ => .inl rfl
    · split
      · exact fun _ => .inr ⟨rfl, rfl⟩
      · exact fun h => by cases h

theorem cueStartBody_keeps (k mode block : Nat) : (cueStartBody k mode block p).KeepsIfRefused p := by
  unfold cueStartBody
  split
  · exact refuse_keeps p _
  · simp

theorem cueStopBody_keeps (k : Nat) : (cueStopBody k p).KeepsIfRefused p := by
  simp [cueStopBody]

theorem cueConfigBody_keeps (k window : Nat) : (cueConfigBody k window p).KeepsIfRefused p := by
  simp [cueConfigBody]

theorem readCueBody_keeps (k : Nat) : (readCueBody k p).KeepsIfRefused p := by
  simp [readCueBody]

/-! #### Journal, time, meters and conditions -/

theorem readTapBody_keeps (ch : Nat) : (readTapBody ch p).KeepsIfRefused p := by
  simp [readTapBody]

theorem scheduleBody_keeps (due : BitVec 48) (action : Nat) (args : List Nat) :
    (scheduleBody due action args p).KeepsIfRefused p := by
  simp [scheduleBody]

theorem cancelBody_keeps (id : Nat) : (cancelBody id p).KeepsIfRefused p := by
  simp [cancelBody]

theorem readScheduleBody_keeps (start : Nat) : (readScheduleBody start p).KeepsIfRefused p := by
  simp [readScheduleBody]

theorem meterOpenBody_keeps (m source : Nat) : (meterOpenBody m source p).KeepsIfRefused p := by
  simp [meterOpenBody]

theorem meterCloseBody_keeps (m : Nat) : (meterCloseBody m p).KeepsIfRefused p := by
  unfold meterCloseBody
  split
  · exact refuse_keeps p _
  · split
    · exact refuse_keeps p _
    · refine keeps_of_not_refusal p ?_
      dsimp only
      split <;> rfl

theorem ackConditionBody_keeps (n : Nat) : (ackConditionBody n p).KeepsIfRefused p := by
  simp [ackConditionBody]

end Owners

/-! #### Checks that follow the reading of a line record

The record is found sound, so that its own check changes nothing (R61). -/

section Lines

variable {p : Part} (hp : ∀ n, p.useLine n = p)

include hp

theorem defineLineBody_keeps (n kind : Nat) (appear : BitVec 24) (policy : Nat) (ringCue holdCue : Option Nat)
    (sense edge debounce : Nat) :
    (defineLineBody n kind appear policy ringCue holdCue sense edge debounce p).KeepsIfRefused p := by
  unfold defineLineBody
  split
  · simp [hp]
  · exact refuse_keeps p _

theorem removeLineBody_keeps (n : Nat) : (removeLineBody n p).KeepsIfRefused p := by
  simp [removeLineBody, hp]

theorem seizeBody_keeps (n pos dev : Nat) : (seizeBody n pos dev p).KeepsIfRefused p := by
  unfold seizeBody
  split
  · exact refuse_keeps p _
  · simp [hp, seizeLine_keeps]

theorem leaveBody_keeps (n pos dev : Nat) : (leaveBody n pos dev p).KeepsIfRefused p := by
  unfold leaveBody
  split
  · exact refuse_keeps p _
  · simp [hp]

theorem holdBody_keeps (n pos dev : Nat) : (holdBody n pos dev p).KeepsIfRefused p := by
  unfold holdBody
  split
  · exact refuse_keeps p _
  · simp [hp]

theorem releaseLineBody_keeps (n : Nat) : (releaseLineBody n p).KeepsIfRefused p := by
  unfold releaseLineBody
  split
  · exact refuse_keeps p _
  · dsimp only
    rw [hp]
    split <;> simp

theorem ringBody_keeps (n : Nat) : (ringBody n p).KeepsIfRefused p := by
  simp [ringBody, hp]

theorem setPrivacyBody_keeps (n pos onOff : Nat) : (setPrivacyBody n pos onOff p).KeepsIfRefused p := by
  unfold setPrivacyBody
  split
  · exact refuse_keeps p _
  · simp [hp]

theorem probeBody_keeps (tag n window : Nat) : (probeBody tag n window p).KeepsIfRefused p := by
  unfold probeBody
  dsimp only
  rw [hp]
  simp only [ite_keeps, refuse_keeps, implies_true, true_and]
  intro _ _
  split <;> simp

theorem talkPress_keeps (pos : Nat) (through : Option Nat) (t : SkTarget) :
    (talkPress pos through t p).KeepsIfRefused p := by
  unfold talkPress
  simp only [ite_keeps, refuse_keeps, accept_keeps, implies_true, true_and]
  intro _ _ _
  cases t with
  | hoot n => simp only [hp]; exact hootPress_keeps pos _ n
  | group g => exact groupRequest_keeps pos g through

theorem speakerTalkPressBody_keeps (pos k : Nat) : (speakerTalkPressBody pos k p).KeepsIfRefused p := by
  unfold speakerTalkPressBody
  simp only [ite_keeps, refuse_keeps, implies_true, true_and]
  intro _ _
  split
  · exact refuse_keeps p _
  · exact talkPress_keeps hp pos _ _

theorem groupTalkPressBody_keeps (pos g : Nat) : (groupTalkPressBody pos g p).KeepsIfRefused p := by
  simp [groupTalkPressBody, talkPress_keeps hp]

end Lines

/-! ### Every command of the host -/

/-- The command has no effect on the link, and its owner's refusal leaves these blocks as they are. -/
def RefusesCleanly (c : Instr) (p : Part) : Prop :=
  ∃ body : Part → Answered, (∀ s, exec c s = .next (commandRun c body s)) ∧ (body p).KeepsIfRefused p

/-- The command is CP's own and is always answered OK (R205, R206). -/
def NeverRefused (c : Instr) : Prop :=
  ∃ (body : Link → Part → Answered) (after : Link → Link), (∀ s, exec c s = .next (hostRun c body after s))
    ∧ (∀ l, (after l).replies = l.replies ∧ (after l).tx = l.tx) ∧ ∀ l q, (body l q).result = .ok

/-- Every command of the host refuses cleanly, but CUE_LOAD, and STATUS and RESTART, which refuse nothing. -/
theorem hostCommand_cases {c : Instr} {tag : Nat} {cmd : Cmd} (hc : c.host? = some (tag, cmd)) {p : Part}
    (hp : ∀ n, p.useLine n = p) :
    RefusesCleanly c p ∨ NeverRefused c ∨ ∃ k a v n x, c = .cueLoad tag k a v n x := by
  cases c with
  | defineLine _ n kind appear policy ringCue holdCue sense edge debounce =>
    exact .inl ⟨_, fun _ => rfl, defineLineBody_keeps hp n kind appear policy ringCue holdCue sense edge debounce⟩
  | removeLine _ n => exact .inl ⟨_, fun _ => rfl, removeLineBody_keeps hp n⟩
  | definePosition _ pos a => exact .inl ⟨_, fun _ => rfl, definePositionBody_keeps pos a⟩
  | setDeviceGain _ pos device which code => exact .inl ⟨_, fun _ => rfl, setDeviceGainBody_keeps pos device which code⟩
  | setTrim _ pos output t => exact .inl ⟨_, fun _ => rfl, setTrimBody_keeps pos output t⟩
  | defineSpeaker _ pos k targetKind target side code priority listen =>
    exact .inl ⟨_, fun _ => rfl, defineSpeakerBody_keeps pos k targetKind target side code priority listen⟩
  | defineGroup _ g members talkCode revoke =>
    exact .inl ⟨_, fun _ => rfl, defineGroupBody_keeps g members talkCode revoke⟩
  | cueRoute _ route player output code => exact .inl ⟨_, fun _ => rfl, cueRouteBody_keeps route player output code⟩
  | setGuard _ cls level => exact .inl ⟨_, fun _ => rfl, setGuardBody_keeps cls level⟩
  | digest t => exact .inl ⟨_, fun _ => rfl, digestBody_keeps t⟩
  | readLine _ n => exact .inl ⟨_, fun _ => rfl, readLineBody_keeps n⟩
  | readPosition _ pos => exact .inl ⟨_, fun _ => rfl, readPositionBody_keeps pos⟩
  | seize _ n pos dev => exact .inl ⟨_, fun _ => rfl, seizeBody_keeps hp n pos dev⟩
  | leave _ n pos dev => exact .inl ⟨_, fun _ => rfl, leaveBody_keeps hp n pos dev⟩
  | hold _ n pos dev => exact .inl ⟨_, fun _ => rfl, holdBody_keeps hp n pos dev⟩
  | ring _ n => exact .inl ⟨_, fun _ => rfl, ringBody_keeps hp n⟩
  | setPrivacy _ n pos onOff => exact .inl ⟨_, fun _ => rfl, setPrivacyBody_keeps hp n pos onOff⟩
  | releaseLine _ n => exact .inl ⟨_, fun _ => rfl, releaseLineBody_keeps hp n⟩
  | speakerListen _ pos k onOff => exact .inl ⟨_, fun _ => rfl, speakerListenBody_keeps pos k onOff⟩
  | speakerGain _ pos k code => exact .inl ⟨_, fun _ => rfl, speakerGainBody_keeps pos k code⟩
  | speakerTalkPress _ pos k => exact .inl ⟨_, fun _ => rfl, speakerTalkPressBody_keeps hp pos k⟩
  | speakerTalkRelease _ pos k => exact .inl ⟨_, fun _ => rfl, speakerTalkReleaseBody_keeps pos k⟩
  | groupTalkPress _ pos g => exact .inl ⟨_, fun _ => rfl, groupTalkPressBody_keeps hp pos g⟩
  | groupTalkRelease _ pos g => exact .inl ⟨_, fun _ => rfl, groupTalkReleaseBody_keeps pos g⟩
  | refreshOutput _ out => exact .inl ⟨_, fun _ => rfl, refreshOutputBody_keeps out⟩
  | readMix _ out => exact .inl ⟨_, fun _ => rfl, readMixBody_keeps out⟩
  | cueLoad _ k a v n x => cases hc; exact .inr (.inr ⟨k, a, v, n, x, rfl⟩)
  | cueStart _ k mode block => exact .inl ⟨_, fun _ => rfl, cueStartBody_keeps k mode block⟩
  | cueStop _ k => exact .inl ⟨_, fun _ => rfl, cueStopBody_keeps k⟩
  | cueConfig _ k window => exact .inl ⟨_, fun _ => rfl, cueConfigBody_keeps k window⟩
  | readCue _ k => exact .inl ⟨_, fun _ => rfl, readCueBody_keeps k⟩
  | journalFetch _ start count => exact .inl ⟨journalFetchBody start count, fun _ => rfl, ok_keeps p _ _⟩
  | journalRelease _ upTo => exact .inl ⟨journalReleaseBody upTo, fun _ => rfl, ok_keeps p _ _⟩
  | readTap _ ch => exact .inl ⟨_, fun _ => rfl, readTapBody_keeps ch⟩
  | setTime _ time => exact .inl ⟨setTimeBody time, fun _ => rfl, ok_keeps p _ _⟩
  | steer _ delta => exact .inl ⟨steerBody delta, fun _ => rfl, ok_keeps p _ _⟩
  | schedule _ due action args => exact .inl ⟨_, fun _ => rfl, scheduleBody_keeps due action args⟩
  | cancel _ id => exact .inl ⟨_, fun _ => rfl, cancelBody_keeps id⟩
  | readSchedule _ start => exact .inl ⟨_, fun _ => rfl, readScheduleBody_keeps start⟩
  | probe t n window => exact .inl ⟨_, fun _ => rfl, probeBody_keeps hp t n window⟩
  | meterOpen _ m source => exact .inl ⟨_, fun _ => rfl, meterOpenBody_keeps m source⟩
  | meterClose _ m => exact .inl ⟨_, fun _ => rfl, meterCloseBody_keeps m⟩
  | readFault _ => exact .inl ⟨readFaultBody, fun _ => rfl, ok_keeps p _ _⟩
  | clearFault _ => exact .inl ⟨clearFaultBody, fun _ => rfl, accept_keeps p _⟩
  | ackCondition _ n => exact .inl ⟨_, fun _ => rfl, ackConditionBody_keeps n⟩
  | status _ => exact .inr (.inl ⟨statusBody, Link.clearCounts, fun _ => rfl, fun _ => ⟨rfl, rfl⟩, fun _ _ => rfl⟩)
  | restart _ =>
    exact .inr (.inl ⟨fun _ p => p.accept, Link.takeRestart, fun _ => rfl, fun _ => ⟨rfl, rfl⟩, fun _ _ => rfl⟩)
  | _ => cases hc

/-- Settles O13: a reply found under the tag is the owner's own answer, and an owner's refusal hands the blocks back as it
took them. -/
theorem refusedCommandChangesNothing : Obligations.RefusedCommandChangesNothing := by
  intro c tag cmd s t r i hc ht ho hd hqueue hsent hexec hr hrefused
  have hp : ∀ n, (s.part.took c).useLine n = s.part.took c := fun n => useLine_unchanged (hd n) ho
  rcases hostCommand_cases hc hp with ⟨body, hrun, hkeeps⟩ | ⟨body, after, hrun, hafter, hok⟩ | ⟨k, a, v, n, x, rfl⟩
  · rw [hrun] at hexec
    cases hexec
    have hresult := hostRun_reply hc ht hqueue hsent (fun _ => ⟨rfl, rfl⟩) hr
    have hleaves := (commandRun_takes hc ht body).1
    rw [hkeeps (hresult ▸ hrefused)] at hleaves
    exact .inl hleaves
  · rw [hrun] at hexec
    cases hexec
    rw [hostRun_reply hc ht hqueue hsent hafter hr, hok] at hrefused
    cases hrefused
  · cases hexec
    have hresult := hostRun_reply hc ht hqueue hsent (fun _ => ⟨rfl, rfl⟩) hr
    have hleaves := (commandRun_takes hc ht (cueLoadBody k a v n x)).1
    rcases cueLoadBody_refused k a v n x (hresult ▸ hrefused) with hsame | ⟨hwindow, hadvanced⟩
    · rw [hsame] at hleaves
      exact .inl hleaves
    · rw [hadvanced] at hleaves
      exact .inr ⟨k, a, v, n, x, rfl, hresult.trans hwindow, hleaves⟩

end Sys2Proof.Machine
end

section
/-! Proofs of the statements of line signalling: RING and SET_PRIVACY (R35, R66, R67), debounced changes and the end of a burst
(R26 to R39), a highway's loss and return at its lines (R38, R60, R61), and a reference frame at the ports, the cue players and
the highways (R24 to R35, R130, R178 to R183). -/

namespace Sys2Proof.Machine

open Sys2Proof

/-! ### What a run of updates keeps -/

/-- What every update of a run keeps, the run keeps. -/
theorem foldl_keeps {α β γ : Type} (f : α → γ) {g : α → β → α} (h : ∀ a b, f (g a b) = f a) (l : List β) (a : α) :
    f (l.foldl g a) = f a := by
  induction l generalizing a with
  | nil => rfl
  | cons b l ih => rw [List.foldl_cons, ih, h]

/-- What every update of a run relates, the run relates. -/
theorem foldl_relates {α β : Type} {R : α → α → Prop} (refl : ∀ a, R a a) (trans : ∀ {a b c}, R a b → R b c → R a c)
    {g : α → β → α} (h : ∀ a b, R a (g a b)) (l : List β) (a : α) : R a (l.foldl g a) := by
  induction l generalizing a with
  | nil => exact refl a
  | cons b l ih => exact trans (h a b) (ih _)

/-- A notice handed to CP is nothing that `Leaves` speaks of. -/
theorem leaves_note {s t : State} {p : Part} {x : Notice} : Leaves s t (p.note x) ↔ Leaves s t p := Iff.rfl

theorem leaves_noteLine {s t : State} {p : Part} {n : Nat} {cause : LineCause} :
    Leaves s t (p.noteLine n cause) ↔ Leaves s t p := Iff.rfl

@[simp] theorem setLine_self (p : Part) (n : Nat) : p.setLine n (p.line n) = p := by
  unfold Part.setLine Part.line
  rw [vset_vget_self]

/-! ### A damaged record, read (R61) -/

@[simp] theorem handBusy_cc (p : Part) (pos : Nat) : (p.handBusy pos).cc = p.cc := rfl

@[simp] theorem cuLeave_cc (p : Part) (n : Nat) (reason : CloseCause) (o : Occupant) : (p.cuLeave n reason o).cc = p.cc := by
  have h := cuLeave_onlyCU p n reason o
  unfold OnlyCU at h
  rw [h]

/-- Of CC's tables a departure changes what the leaves and the line's new record change (R47). -/
theorem depart_cc (p : Part) (n : Nat) (who : List Occupant) (upd : Line → Line) (reason : CloseCause) :
    let left := who.foldl (fun q o => q.detach n o) p
    (p.depart n who upd reason).cc = (left.setLine n (upd (left.line n))).cc := by
  unfold Part.depart
  dsimp only
  rw [handPort_cc, foldl_keeps Part.cc (fun q o => cuLeave_cc q n reason o),
    foldl_keeps Part.cc (fun q (o : Occupant) => handBusy_cc q o.1)]
  split
  · rfl
  · rw [edit_cc]

theorem outOfService_line (p : Part) {n : Nat} (h : n < 192) (cause : OosCause) (prov : LineProv) :
    (p.outOfService n cause prov).line n = { Line.fresh prov .outOfService with oosCause := some cause } := by
  unfold Part.outOfService Part.noteLine
  rw [line_note, Part.line, depart_cc]
  exact line_setLine_same _ h _

/-- A line whose record had a double-bit error is left by everybody (R61). -/
theorem memoryFault_occupants (p : Part) {n : Nat} (h : n < 192) (reads : LineProv) :
    ((p.memoryFault n reads).line n).occupants = [] := by
  unfold Part.memoryFault
  dsimp only
  split
  · rw [line_setLine_same p h]
  · split
    · rw [line_setLine_same p h]; rfl
    · unfold Part.noteLine; rw [line_note, line_setLine_same p h]; rfl
    · unfold Part.noteLine; rw [line_note, line_setLine_same p h]; rfl
  all_goals rw [outOfService_line p h]; rfl

/-- A line that still has occupants once its record is read had no double-bit error, and reading it told nothing (R61). -/
theorem useLine_occupied_silent {p : Part} {n : Nat} (h : n < 192) (ho : ((p.useLine n).line n).occupants ≠ [])
    (hearly : p.early = []) (hout : p.outbox = []) : (p.useLine n).early = [] ∧ (p.useLine n).outbox = [] := by
  cases hd : (p.line n).damage with
  | none => rw [useLine_sound p hd, hearly, hout]; exact ⟨rfl, rfl⟩
  | some x =>
    cases x with
    | single syn =>
      rw [Part.useLine, checkLine_single p hd]
      exact ⟨by rw [raise_early, setLine_early, raise_outbox, setLine_outbox, hearly, hout]; rfl, rfl⟩
    | double syn reads =>
      refine absurd ?_ ho
      rw [Part.useLine, Part.checkLine, hd]
      exact memoryFault_occupants _ h reads

/-! ### RING and SET_PRIVACY (R66, R67) -/

/-- What RING comes to, by the line and its port (R35, R66). -/
theorem ringBody_eq (p : Part) {n : Nat} (h : n < 192) :
    ringBody n p =
      if ((p.useLine n).line n).state ≠ .connected ∨ ((p.useLine n).line n).prov.kind ≠ .manual then
        (p.useLine n).refuse .wrongState
      else if ((p.useLine n).port n).burst ≠ 0 then (p.useLine n).refuse .busy
      else ((p.useLine n).setPort n { (p.useLine n).port n with burst := 16000, outLead := true }).accept := by
  rw [ringBody, if_neg (Nat.not_le.mpr h)]

theorem ring_taken {tag n : Nat} {s : State} (h : s.takes (.ring tag n) = true) {a : Answered}
    (ha : ringBody n (s.part.took (.ring tag n)) = a) :
    ∃ t, exec (.ring tag n) s = .next t ∧ Replied t tag .ring a.result a.info ∧ Leaves s t a.part := by
  obtain ⟨hleaves, hreply⟩ := commandRun_takes rfl h (ringBody n)
  subst ha
  exact ⟨_, rfl, hreply, hleaves⟩

/-- What SET_PRIVACY comes to for a line that is provisioned and no hoot (R67). -/
theorem setPrivacyBody_eq (p : Part) {n pos onOff : Nat} {v : Bool} (hn : n < 192) (hpos : pos < 24)
    (hv : onOffOf onOff = some v) (hprov : ((p.useLine n).line n).state ≠ .unprovisioned)
    (hkind : ((p.useLine n).line n).prov.kind ≠ .hoot) :
    setPrivacyBody n pos onOff p =
      let q := p.useLine n
      let l := q.line n
      if (l.occupants.any fun o => o.1 == pos && o.2 != .sk) = false then q.refuse .notOccupant
      else if v ∧ (l.occupants.all fun o => o.1 == pos) = false then q.refuse .lineShared
      else if l.privacy = v then q.accept
      else ((q.setLine n { l with privacy := v }).noteLine n .privacy).accept := by
  have hrange : ¬(192 ≤ n ∨ 24 ≤ pos) := by omega
  have hstate : ¬(((p.useLine n).line n).state = .unprovisioned ∨ ((p.useLine n).line n).prov.kind = .hoot) := by
    simp [hprov, hkind]
  simp only [setPrivacyBody, hv, if_neg hrange, if_neg hstate]

/-- A handset of the position occupies the line. -/
theorem any_handset_iff {os : List Occupant} {pos : Nat} :
    (os.any fun o => o.1 == pos && o.2 != .sk) = true ↔ ∃ o ∈ os, o.1 = pos ∧ o.2 ≠ .sk := by
  simp

theorem setPrivacy_taken {tag n pos onOff : Nat} {s : State} (h : s.takes (.setPrivacy tag n pos onOff) = true) {a : Answered}
    (ha : setPrivacyBody n pos onOff (s.part.took (.setPrivacy tag n pos onOff)) = a) :
    ∃ t, exec (.setPrivacy tag n pos onOff) s = .next t ∧ Replied t tag .setPrivacy a.result a.info ∧ Leaves s t a.part
      ∧ ∀ x ∈ a.part.outbox, s.link.notices.length + a.part.early.length + a.part.outbox.length ≤ 64 → Told t x := by
  obtain ⟨hleaves, hreply⟩ := commandRun_takes rfl h (setPrivacyBody n pos onOff)
  subst ha
  exact ⟨_, rfl, hreply, hleaves, fun x hx hroom => commandRun_told rfl h _ hx hroom⟩

/-- Settles O38, by the checks of the two commands in their order. -/
theorem ringAndPrivacy : Obligations.RingAndPrivacy := by
  refine ⟨fun tag n s hn ht => ?_, fun tag n pos onOff v s hn hpos hv ht hprov hkind => ?_⟩
  · have body := ringBody_eq (s.part.took (.ring tag n)) hn
    refine ⟨fun hst hk hb => ?_, fun hst hk hb => ?_, fun hrefuse => ?_⟩
    · rw [if_neg (by simp [hst, hk]), if_neg (by simp [hb])] at body
      exact ring_taken ht body
    · rw [if_neg (by simp [hst, hk]), if_pos hb] at body
      exact ring_taken ht body
    · rw [if_pos hrefuse] at body
      exact ring_taken ht body
  · have body := setPrivacyBody_eq (s.part.took (.setPrivacy tag n pos onOff)) hn hpos hv hprov hkind
    dsimp only at body ⊢
    generalize hq : (s.part.took (.setPrivacy tag n pos onOff)).useLine n = q at body ⊢
    refine ⟨fun hmember halone => ?_, fun hstranger => ?_, fun hmember hon hshared => ?_⟩
    · have hallowed : ¬(v = true ∧ ((q.line n).occupants.all fun o => o.1 == pos) = false) := by
        rintro ⟨hon, hother⟩
        rw [List.all_eq_true.mpr fun o ho => beq_iff_eq.mpr (halone hon o ho)] at hother
        cases hother
      rw [if_neg (by rw [any_handset_iff.mpr hmember]; simp), if_neg hallowed] at body
      by_cases hsame : (q.line n).privacy = v
      · rw [if_pos hsame] at body
        obtain ⟨t, hexec, hreply, hleaves, -⟩ := setPrivacy_taken ht body
        refine ⟨t, hexec, hreply, ?_, fun _ hne => absurd hsame hne⟩
        subst hsame
        exact (setLine_self q n).symm ▸ hleaves
      · rw [if_neg hsame] at body
        obtain ⟨t, hexec, hreply, hleaves, htold⟩ := setPrivacy_taken ht body
        refine ⟨t, hexec, hreply, leaves_noteLine.mp hleaves, fun ⟨hearly, hout, hroom⟩ _ => ?_⟩
        obtain ⟨o, ho, -⟩ := hmember
        obtain ⟨hearly', hout'⟩ : q.early = [] ∧ q.outbox = [] := by
          rw [← hq] at ho ⊢
          exact useLine_occupied_silent hn (List.ne_nil_of_mem ho) hearly hout
        refine htold _ ?_ ?_
        · simp [Part.accept, Part.noteLine, hn]
        · simp [Part.accept, Part.noteLine, hearly', hout']
          omega
    · rw [if_pos (by simpa using hstranger)] at body
      obtain ⟨t, hexec, hreply, hleaves, -⟩ := setPrivacy_taken ht body
      exact ⟨t, hexec, hreply, hleaves⟩
    · rw [if_neg (by rw [any_handset_iff.mpr hmember]; simp), if_pos ⟨hon, by simpa using hshared⟩] at body
      obtain ⟨t, hexec, hreply, hleaves, -⟩ := setPrivacy_taken ht body
      exact ⟨t, hexec, hreply, hleaves⟩

/-! ### Debounced changes (R26, R29, R32, R33, R37, R39) -/

@[simp] theorem setPort_setPort (p : Part) (n : Nat) (x y : Port) : (p.setPort n x).setPort n y = p.setPort n y := by
  unfold Part.setPort vset
  simp

theorem edgeSelects_iff {e : EdgeReport} {v : Bool} :
    edgeSelects e v = true ↔ e = .both ∨ (e = .rise ∧ v = true) ∨ (e = .fall ∧ v = false) := by
  cases e <;> simp [edgeSelects]

section LeadEvent

variable {p : Part} {n : Nat}

/-- A RINGDOWN port hands CC a rise or a fall (R33). -/
theorem leadEvent_ringdown (h : (p.port n).kind = .ringdown) (v : Bool) :
    p.leadEvent n v = p.raise (if v then .riseEvent n else .fallEvent n) := by
  cases v <;> simp only [Part.leadEvent, h] <;> rfl

/-- A MANUAL port's rise starts the incoming timer (R32). -/
theorem leadEvent_manual_rise (h : (p.port n).kind = .manual) :
    p.leadEvent n true = p.setPort n { p.port n with inTimer := some 0 } := by
  simp only [Part.leadEvent, h]

/-- The event of an incoming burst that ends after so many frames, if a timer ran (R32). -/
def endedBurst (n : Nat) : Option Nat → List Instr
  | some len => if 3200 ≤ len ∧ len ≤ 32000 then [.burstEvent n len] else []
  | none => []

/-- A MANUAL port's fall stops the incoming timer and hands CC a valid burst (R32). -/
theorem leadEvent_manual_fall (h : (p.port n).kind = .manual) :
    p.leadEvent n false = { p.setPort n { p.port n with inTimer := none } with
      events := p.events ++ endedBurst n (p.port n).inTimer } := by
  simp only [Part.leadEvent, h]
  cases (p.port n).inTimer with
  | none => simp only [endedBurst, List.append_nil]; rfl
  | some len =>
    by_cases hv : 3200 ≤ len ∧ len ≤ 32000
    · simp only [endedBurst, burstValid, hv, and_self, decide_true, if_true]; rfl
    · simp only [endedBurst, burstValid, hv, decide_false, if_false, List.append_nil]; rfl

/-- A HOOT port's lead is nothing to CC (R33). -/
theorem leadEvent_hoot (h : (p.port n).kind = .hoot) (v : Bool) : p.leadEvent n v = p := by
  simp only [Part.leadEvent, h]

/-- Whatever the kind, no notice goes to CP with the event. -/
theorem leadEvent_keeps (v : Bool) :
    p.leadEvent n v = { p with ports := (p.leadEvent n v).ports, events := (p.leadEvent n v).events } := by
  cases h : (p.port n).kind with
  | ringdown => rw [leadEvent_ringdown h]; rfl
  | manual =>
    cases v with
    | false => rw [leadEvent_manual_fall h]; rfl
    | true => rw [leadEvent_manual_rise h]; rfl
  | hoot => rw [leadEvent_hoot h]

theorem leadEvent_note (x : Notice) (v : Bool) : (p.note x).leadEvent n v = (p.leadEvent n v).note x := by
  have hport : (p.note x).port n = p.port n := rfl
  cases h : (p.port n).kind with
  | ringdown => rw [leadEvent_ringdown h, leadEvent_ringdown (hport ▸ h)]; rfl
  | manual =>
    cases v with
    | false => rw [leadEvent_manual_fall h, leadEvent_manual_fall (hport ▸ h)]; rfl
    | true => rw [leadEvent_manual_rise h, leadEvent_manual_rise (hport ▸ h)]; rfl
  | hoot => rw [leadEvent_hoot h, leadEvent_hoot (hport ▸ h)]

end LeadEvent

/-- A change to the value that stands is none (R26). -/
theorem debouncedChangeBody_same {p : Part} {n : Nat} {v : Bool} (h : (p.port n).debounced = v) :
    debouncedChangeBody n v p = p := by
  unfold debouncedChangeBody
  exact if_pos h

/-- An unprovisioned port and one out of service write the value and raise nothing (R37, R39). -/
theorem debouncedChangeBody_mute {p : Part} {n : Nat} {v : Bool} (h : (p.port n).debounced ≠ v)
    (hmute : (p.port n).provisioned = false ∨ (p.port n).outOfService = true) :
    debouncedChangeBody n v p = p.setPort n { p.port n with debounced := v, stable := 0 } := by
  have hoff : ¬((p.port n).provisioned && !(p.port n).outOfService) = true := by
    rcases hmute with h | h <;> simp [h]
  unfold debouncedChangeBody
  dsimp only
  rw [if_neg h, if_neg hoff]

/-- A provisioned port in service writes the value, tells LEAD if its edge report selects it, and hands on its kind's event
(R26, R29). -/
theorem debouncedChangeBody_told {p : Part} {n : Nat} {v : Bool} (h : (p.port n).debounced ≠ v)
    (hprov : (p.port n).provisioned = true) (hserv : (p.port n).outOfService = false) :
    debouncedChangeBody n v p =
      let q := (p.setPort n { p.port n with debounced := v, stable := 0 }).leadEvent n v
      if edgeSelects (p.port n).edge v then q.note (.lead n v) else q := by
  have hon : ((p.port n).provisioned && !(p.port n).outOfService) = true := by simp [hprov, hserv]
  unfold debouncedChangeBody
  dsimp only
  rw [if_neg h, if_pos hon]
  split
  · exact leadEvent_note _ _
  · rfl

/-- A debounced change leaves the value and what its kind makes of it, and LEAD goes out if it is selected (R29). -/
theorem debouncedChange_leaves {n : Nat} {v : Bool} {s : State} {p : Part} (hp : p = s.part.took (.debouncedChange n v))
    (h : (p.port n).debounced ≠ v) (hprov : (p.port n).provisioned = true) (hserv : (p.port n).outOfService = false) :
    ∃ t, exec (.debouncedChange n v) s = .next t
      ∧ Leaves s t ((p.setPort n { p.port n with debounced := v, stable := 0 }).leadEvent n v)
      ∧ (s.roomy → edgeSelects (p.port n).edge v = true → Told t (.lead n v)) := by
  have body := debouncedChangeBody_told h hprov hserv
  have hleaves := eventRun_leaves (.debouncedChange n v) (debouncedChangeBody n v) s
  rw [← hp, body] at hleaves
  refine ⟨_, rfl, ?_, fun ⟨hearly, hout, hroom⟩ hsel => ?_⟩
  · dsimp only at hleaves
    split at hleaves
    · exact leaves_note.mp hleaves
    · exact hleaves
  · dsimp only at body
    rw [if_pos hsel, leadEvent_keeps] at body
    have he : p.early = [] := by rw [hp]; exact hearly
    have ho : p.outbox = [] := by rw [hp]; exact hout
    refine eventRun_told _ _ s ?_ ?_ <;> rw [← hp, body]
    · simp
    · simp [he, ho]
      omega

/-- A MANUAL port whose burst is over drops its lead (R35). -/
theorem outgoingBurstEndBody_ended {p : Part} {n : Nat} (hk : (p.port n).kind = .manual) (hb : (p.port n).burst = 0) :
    outgoingBurstEndBody n p = p.setPort n { p.port n with outLead := false } :=
  if_pos ⟨hk, hb⟩

theorem outgoingBurstEndBody_none {p : Part} {n : Nat} (h : (p.port n).kind ≠ .manual ∨ (p.port n).burst ≠ 0) :
    outgoingBurstEndBody n p = p :=
  if_neg fun ⟨hk, hb⟩ => h.elim (· hk) (· hb)

/-- Settles O54, its first half by the port's kind. -/
theorem debouncedChangeProduced : Obligations.DebouncedChangeProduced := by
  refine ⟨fun n v s hn => ?_, fun n s => ?_⟩
  · have hleaves := eventRun_leaves (.debouncedChange n v) (debouncedChangeBody n v) s
    dsimp only
    generalize hp : s.part.took (.debouncedChange n v) = p at hleaves ⊢
    refine ⟨fun hsame => ⟨_, rfl, ?_⟩, fun hne hmute => ⟨_, rfl, ?_⟩, fun hne hprov hserv => ?_⟩
    · exact debouncedChangeBody_same hsame ▸ hleaves
    · exact debouncedChangeBody_mute hne hmute ▸ hleaves
    · obtain ⟨t, hexec, hmade, htold⟩ := debouncedChange_leaves hp.symm hne hprov hserv
      have hport := port_setPort_same p hn { p.port n with debounced := v, stable := 0 }
      have hkind := congrArg Port.kind hport
      refine ⟨t, hexec, fun hk => ?_, fun hk hv => ?_, fun hk hv len hlen => ?_, fun hk hv hidle => ?_, fun hk => ?_,
        fun hroomy hsel => htold hroomy (edgeSelects_iff.mpr hsel)⟩
      · rwa [leadEvent_ringdown (hkind.trans hk)] at hmade
      · subst hv
        rwa [leadEvent_manual_rise (hkind.trans hk), hport, setPort_setPort] at hmade
      · subst hv
        rw [leadEvent_manual_fall (hkind.trans hk), hport, setPort_setPort] at hmade
        rwa [hlen] at hmade
      · subst hv
        rw [leadEvent_manual_fall (hkind.trans hk), hport, setPort_setPort] at hmade
        rwa [hidle, endedBurst, List.append_nil] at hmade
      · rwa [leadEvent_hoot (hkind.trans hk)] at hmade
  · have hleaves := eventRun_leaves (.outgoingBurstEnd n) (outgoingBurstEndBody n) s
    refine ⟨fun hk hb => ⟨_, rfl, ?_⟩, fun hother => ⟨_, rfl, ?_⟩⟩
    · exact outgoingBurstEndBody_ended hk hb ▸ hleaves
    · exact outgoingBurstEndBody_none hother ▸ hleaves

/-! ### A highway's ports (R38) -/

theorem leaves_ports {s t : State} {p : Part} (h : Leaves s t p) : t.part.ports = p.ports := (congrArg Part.ports h.1 :)

theorem leaves_cc {s t : State} {p : Part} (h : Leaves s t p) : t.part.cc = p.cc := (congrArg Part.cc h.1 :)

theorem leaves_mx {s t : State} {p : Part} (h : Leaves s t p) : t.part.mx = p.mx := (congrArg Part.mx h.1 :)

theorem leaves_cue {s t : State} {p : Part} (h : Leaves s t p) : t.part.cue = p.cue := (congrArg Part.cue h.1 :)

theorem leaves_tu {s t : State} {p : Part} (h : Leaves s t p) : t.part.tu = p.tu := (congrArg Part.tu h.1 :)

theorem leaves_au {s t : State} {p : Part} (h : Leaves s t p) : t.part.au = p.au := (congrArg Part.au h.1 :)

theorem leaves_events {s t : State} {p : Part} (h : Leaves s t p) : t.part.events = p.events := h.2.1

theorem leaves_line {s t : State} {p : Part} (h : Leaves s t p) (n : Nat) : t.part.line n = p.line n := by
  rw [Part.line, Part.line, leaves_cc h]

theorem leaves_port {s t : State} {p : Part} (h : Leaves s t p) (n : Nat) : t.part.port n = p.port n := by
  rw [Part.port, Part.port, leaves_ports h]

theorem leaves_position {s t : State} {p : Part} (h : Leaves s t p) (n : Nat) : t.part.position n = p.position n := by
  rw [Part.position, Part.position, leaves_cc h]

theorem modPorts_port (p : Part) (h : Nat) (f : Port → Port) {n : Nat} (hn : n < 192) :
    (p.modPorts h f).port n = if n / 48 = h then f (p.port n) else p.port n :=
  vget_mapIdx p.ports (fun i q => if hwOf i = h then f q else q) hn {} {}

/-- An event that changes the ports of a highway: nothing else of the part changes (R38). -/
theorem modPorts_leaves {c : Instr} {h : Nat} {f : Port → Port} {s : State}
    (hrun : exec c s = .next (eventRun c (fun p => p.modPorts h f) s)) :
    ∃ t, exec c s = .next t ∧ Leaves s t { s.part.took c with ports := t.part.ports }
      ∧ ∀ n, n < 192 → t.part.port n = if n / 48 = h then f ((s.part.took c).port n) else (s.part.took c).port n := by
  have hleaves := eventRun_leaves c (fun p => p.modPorts h f) s
  refine ⟨_, hrun, ?_, fun n hn => ?_⟩
  · rw [leaves_ports hleaves]; exact hleaves
  · rw [leaves_port hleaves, modPorts_port _ _ _ hn]

/-! ### The lines of a highway (R60, R61, R181, R182) -/

theorem mem_highwayLines {h n : Nat} : n ∈ highwayLines h ↔ n / 48 = h := by
  simp only [highwayLines, List.mem_map, List.mem_range]
  exact ⟨fun ⟨k, hk, he⟩ => by omega, fun he => ⟨n % 48, by omega, by omega⟩⟩

theorem highwayLines_nodup (h : Nat) : (highwayLines h).Nodup :=
  List.Pairwise.map (fun k => 48 * h + k) (fun a b (hne : a ≠ b) (he : 48 * h + a = 48 * h + b) => hne (by omega))
    List.nodup_range

/-- Sound records are read for a loss without a change but to the lists of notices, empty between steps (R61). -/
theorem readForLoss_sound {ns : List Nat} {p : Part} (h : ∀ n ∈ ns, (p.line n).damage = none) :
    ∃ early outbox, ns.foldl readForLoss p = { p with early := early, outbox := outbox } := by
  induction ns generalizing p with
  | nil => exact ⟨_, _, rfl⟩
  | cons n ns ih =>
    have hread : ∃ early outbox, readForLoss p n = { p with early := early, outbox := outbox } := by
      unfold readForLoss
      split
      · exact ⟨_, _, rfl⟩
      · exact ⟨_, _, useLine_sound p (h n List.mem_cons_self)⟩
    obtain ⟨e1, o1, hread⟩ := hread
    obtain ⟨e2, o2, hrest⟩ := ih (p := readForLoss p n) (by rw [hread]; exact fun m hm => h m (List.mem_cons_of_mem _ hm))
    exact ⟨e2, o2, by rw [List.foldl_cons, hrest, hread]⟩

/-! #### One leave -/

@[simp] theorem clearSk_lines (p : Part) (pos : Nat) : (p.clearSk pos).cc.lines = p.cc.lines := by
  unfold Part.clearSk
  dsimp only
  split <;> rfl

theorem detach_line_ne (p : Part) {n m : Nat} (h : n ≠ m) (o : Occupant) : (p.detach n o).line m = p.line m := by
  obtain ⟨pos, d⟩ := o
  cases d with
  | sk => simp only [Part.detach, Part.line, clearSk_lines]; exact line_setLine_ne p h _
  | ha | hb => exact line_setLine_ne p h _

/-- No device occupies a line more in `q` than in `p`. -/
def FewerLines (p q : Part) : Prop := ∀ k d, (q.position k).linesOf d ⊆ (p.position k).linesOf d

theorem FewerLines.refl (p : Part) : FewerLines p p := fun _ _ => List.Subset.refl _

theorem FewerLines.trans {p q r : Part} (h : FewerLines p q) (k : FewerLines q r) : FewerLines p r :=
  fun i d _ hn => h i d (k i d hn)

theorem fewerLines_foldl {β : Type} {g : Part → β → Part} (h : ∀ p b, FewerLines p (g p b)) (l : List β) (p : Part) :
    FewerLines p (l.foldl g p) := foldl_relates .refl .trans h l p

/-- A position's record is replaced by one whose devices occupy no more. -/
theorem fewerLines_setPosition {p : Part} {k : Nat} {x : Position} (h : ∀ d, x.linesOf d ⊆ (p.position k).linesOf d) :
    FewerLines p (p.setPosition k x) := by
  intro j d
  by_cases hk : k = j
  · subst hk
    by_cases hlt : k < 24
    · rw [position_setPosition_same p hlt]; exact h d
    · rw [Part.setPosition, vset_of_ge _ (Nat.le_of_not_lt hlt)]; exact List.Subset.refl _
  · rw [position_setPosition_ne p hk]; exact List.Subset.refl _

theorem unjoin_linesOf_subset (q : Position) (d e : Dev) (n : Nat) : (q.unjoin d n).linesOf e ⊆ q.linesOf e := by
  cases d <;> cases e
  case ha.ha | hb.hb => exact fun _ hm => (List.mem_filter.mp hm).1
  all_goals exact List.Subset.refl _

theorem clearSk_fewerLines (p : Part) (pos : Nat) : FewerLines p (p.clearSk pos) := by
  have hcleared : ∀ q : Part, q.cc.positions = p.cc.positions →
      FewerLines p (q.setPosition pos { q.position pos with sk := none }) := by
    intro q hq
    have hfewer : FewerLines q (q.setPosition pos { q.position pos with sk := none }) :=
      fewerLines_setPosition fun d => by cases d <;> exact List.Subset.refl _
    have hsame : ∀ k, q.position k = p.position k := fun k => by rw [Part.position, Part.position, hq]
    exact fun k d => hsame k ▸ hfewer k d
  unfold Part.clearSk
  dsimp only
  split <;> exact hcleared _ rfl

theorem detach_fewerLines (p : Part) (n : Nat) (o : Occupant) : FewerLines p (p.detach n o) := by
  obtain ⟨pos, d⟩ := o
  cases d with
  | sk => exact clearSk_fewerLines (p.setLine n _) pos
  | ha | hb =>
    exact fewerLines_setPosition (p := p.setLine n _) fun e => unjoin_linesOf_subset (p.position pos) _ e n

/-- A handset that leaves a line occupies it no more (R43). -/
theorem detach_not_mem (p : Part) (n : Nat) {o : Occupant} (hd : o.2 ≠ .sk) :
    n ∉ ((p.detach n o).position o.1).linesOf o.2 := by
  by_cases ho : o.1 < 24
  · rw [detach_handset_position p n ho hd]
    obtain ⟨pos, d⟩ := o
    cases d <;> simp [Position.unjoin, Position.linesOf]
  · rw [Part.position, vget_of_ge _ (Nat.le_of_not_lt ho)]
    cases o.2 <;> exact List.not_mem_nil

theorem detach_all_not_mem (p : Part) (n : Nat) {os : List Occupant} {o : Occupant} (ho : o ∈ os) (hd : o.2 ≠ .sk) :
    n ∉ ((os.foldl (fun q o => q.detach n o) p).position o.1).linesOf o.2 := by
  induction os generalizing p with
  | nil => cases ho
  | cons x os ih =>
    rcases List.mem_cons.mp ho with rfl | ho
    · exact fun hm => detach_not_mem p n hd (fewerLines_foldl (fun q o => detach_fewerLines q n o) os _ o.1 o.2 hm)
    · exact ih _ ho

/-! #### One line -/

/-- The part but for what a line's loss changes before the edit: the records of lines, positions and slots, AU's probes and
the op slots. -/
def Part.besidesLoss (p : Part) : Part :=
  { p with
    cc := { p.cc with lines := Vector.replicate 192 {}, positions := Vector.replicate 24 {}, slots := Vector.replicate 288 {} }
    au := {}, ops := Vector.replicate 4 none, opsDone := [] }

theorem abortProbe_keeps (p : Part) (n : Nat) :
    p.abortProbe n = { p with au := (p.abortProbe n).au, ops := (p.abortProbe n).ops, opsDone := (p.abortProbe n).opsDone } := by
  simp only [Part.abortProbe, Part.placeResult]
  split
  · rfl
  · split <;> rfl

theorem detach_besidesLoss (p : Part) (n : Nat) (o : Occupant) : (p.detach n o).besidesLoss = p.besidesLoss := by
  rw [detach_keeps]; rfl

/-- The part in which the occupants of a line leave it: its probe, if one runs, has been aborted (R60 step 1). -/
def Part.unprobed (p : Part) (n : Nat) : Part := if (p.line n).state = .probing then p.abortProbe n else p

theorem loseLine_eq (p : Part) (n : Nat) :
    loseLine p n = ((p.line n).occupants.foldl (fun q o => q.detach n o) (p.unprobed n)).setLine n (p.line n).highwayLost :=
  rfl

@[simp] theorem unprobed_cc (p : Part) (n : Nat) : (p.unprobed n).cc = p.cc := by
  unfold Part.unprobed
  split
  · exact abortProbe_cc p n
  · rfl

theorem unprobed_besidesLoss (p : Part) (n : Nat) : (p.unprobed n).besidesLoss = p.besidesLoss := by
  unfold Part.unprobed
  split
  · rw [abortProbe_keeps]; rfl
  · rfl

theorem loseLine_besidesLoss (p : Part) (n : Nat) : (loseLine p n).besidesLoss = p.besidesLoss := by
  rw [loseLine_eq]
  exact (foldl_keeps Part.besidesLoss (fun q o => detach_besidesLoss q n o) _ _).trans (unprobed_besidesLoss p n)

theorem loseLine_line (p : Part) {n : Nat} (h : n < 192) : (loseLine p n).line n = (p.line n).highwayLost :=
  line_setLine_same _ h _

theorem loseLine_line_ne (p : Part) {n m : Nat} (h : n ≠ m) : (loseLine p n).line m = p.line m := by
  rw [loseLine_eq, line_setLine_ne _ h, foldl_keeps (fun q : Part => q.line m) (fun q o => detach_line_ne q h o), Part.line,
    unprobed_cc]
  rfl

theorem loseLine_fewerLines (p : Part) (n : Nat) : FewerLines p (loseLine p n) := by
  have h := fewerLines_foldl (fun q o => detach_fewerLines q n o) (p.line n).occupants (p.unprobed n)
  intro k d
  have hk := h k d
  rw [Part.position.eq_def (p.unprobed n), unprobed_cc] at hk
  exact hk

/-! #### All lines of the loss -/

theorem loseLine_all_line {ns : List Nat} (hns : ns.Nodup) (hlt : ∀ n ∈ ns, n < 192) (p : Part) (n : Nat) :
    (ns.foldl loseLine p).line n = if n ∈ ns then (p.line n).highwayLost else p.line n := by
  induction ns generalizing p with
  | nil => rfl
  | cons m ns ih =>
    obtain ⟨hm, hns⟩ := List.nodup_cons.mp hns
    rw [List.foldl_cons, ih hns fun k hk => hlt k (List.mem_cons_of_mem _ hk)]
    by_cases hnm : m = n
    · subst hnm
      rw [if_neg hm, if_pos List.mem_cons_self, loseLine_line p (hlt m List.mem_cons_self)]
    · rw [loseLine_line_ne p hnm]
      simp only [List.mem_cons, Ne.symm hnm, false_or]

theorem loseLine_all_not_mem {ns : List Nat} (hns : ns.Nodup) (p : Part) {n : Nat} (hn : n ∈ ns) {o : Occupant}
    (ho : o ∈ (p.line n).occupants) (hd : o.2 ≠ .sk) : n ∉ ((ns.foldl loseLine p).position o.1).linesOf o.2 := by
  induction ns generalizing p with
  | nil => cases hn
  | cons m ns ih =>
    obtain ⟨hm, hns⟩ := List.nodup_cons.mp hns
    by_cases hnm : m = n
    · subst hnm
      have hleft : m ∉ ((loseLine p m).position o.1).linesOf o.2 := detach_all_not_mem (p.unprobed m) m ho hd
      exact fun h => hleft (fewerLines_foldl loseLine_fewerLines ns _ o.1 o.2 h)
    · exact ih hns _ ((List.mem_cons.mp hn).resolve_left (Ne.symm hnm)) (by rw [loseLine_line_ne p hnm]; exact ho)

/-- What the busy marks, CU, LSU and the notices of a loss leave as its edit made it. -/
def Part.afterEdit (p : Part) : CC × Vector (List Entry) 320 × CUE × TU × List Instr :=
  (p.cc, p.mx.lists, p.cue, p.tu, p.events)

theorem onlyCU_afterEdit {p q : Part} (h : OnlyCU p q) : q.afterEdit = p.afterEdit := by
  unfold OnlyCU at h
  rw [h]; rfl

/-- The part of a loss once its lines' records have changed and its one edit is made (R60, R93). -/
def Part.lostAndEdited (p : Part) (lost : List Nat) : Part := (lost.foldl loseLine p).edit (lost.flatMap (lostOuts p))

/-- The part of a loss once CU has taken the leaves and before LSU takes the lines (R47). -/
def Part.lostAndLeft (p : Part) (lost : List Nat) : Part :=
  let who := lost.flatMap fun n => (p.line n).occupants.map fun o => (n, o)
  cuLeaves .lineLost who (who.foldl (fun q x => q.handBusy x.2.1) (p.lostAndEdited lost))

theorem loseLines_eq (p : Part) (lost : List Nat) :
    p.loseLines lost = lost.foldl (fun q n => q.noteLine n .highway) (lost.foldl Part.handPort (p.lostAndLeft lost)) := rfl

theorem lostAndLeft_afterEdit (p : Part) (lost : List Nat) :
    (p.lostAndLeft lost).afterEdit = (p.lostAndEdited lost).afterEdit := by
  unfold Part.lostAndLeft
  dsimp only
  rw [onlyCU_afterEdit (cuLeaves_onlyCU _ _ _)]
  exact foldl_keeps Part.afterEdit (fun q (x : Nat × Occupant) => (rfl : (q.handBusy x.2.1).afterEdit = q.afterEdit)) _ _

/-- LSU finds the ports as they stood before the loss. -/
theorem lostAndLeft_ports (p : Part) (lost : List Nat) : (p.lostAndLeft lost).ports = p.ports := by
  have hcu := cuLeaves_onlyCU .lineLost (lost.flatMap fun n => (p.line n).occupants.map fun o => (n, o))
    ((lost.flatMap fun n => (p.line n).occupants.map fun o => (n, o)).foldl (fun q x => q.handBusy x.2.1)
      (p.lostAndEdited lost))
  unfold OnlyCU at hcu
  unfold Part.lostAndLeft
  dsimp only
  rw [hcu]
  have hlost := foldl_keeps Part.besidesLoss loseLine_besidesLoss lost p
  calc _ = (p.lostAndEdited lost).ports :=
        foldl_keeps Part.ports (fun q (x : Nat × Occupant) => (rfl : (q.handBusy x.2.1).ports = q.ports)) _ _
    _ = (lost.foldl loseLine p).ports := edit_ports _ _
    _ = p.ports := (congrArg Part.ports hlost :)

theorem loseLines_afterEdit (p : Part) (lost : List Nat) :
    (p.loseLines lost).afterEdit = (p.lostAndEdited lost).afterEdit := by
  rw [loseLines_eq, foldl_keeps Part.afterEdit fun q n => (rfl : (q.noteLine n .highway).afterEdit = q.afterEdit),
    foldl_keeps Part.afterEdit fun q n => (rfl : (q.handPort n).afterEdit = q.afterEdit), lostAndLeft_afterEdit]

/-- LSU takes the lines of a loss as CC's step left them (R47). -/
theorem loseLines_ports (p : Part) (lost : List Nat) :
    (p.loseLines lost).ports = (lost.foldl Part.handPort (p.lostAndLeft lost)).ports := by
  rw [loseLines_eq, foldl_keeps Part.ports fun q n => (rfl : (q.noteLine n .highway).ports = q.ports)]

/-! #### LSU's side -/

theorem handPort_outOfService (p : Part) {n : Nat} (h : n < 192) :
    ((p.handPort n).port n).outOfService = ((p.line n).state == .outOfService) := by
  unfold Part.handPort
  rw [port_setPort_same p h]

theorem handPort_all_port_ne {ns : List Nat} (p : Part) {n : Nat} (h : n ∉ ns) :
    (ns.foldl Part.handPort p).port n = p.port n := by
  induction ns generalizing p with
  | nil => rfl
  | cons m ns ih =>
    rw [List.mem_cons, not_or] at h
    rw [List.foldl_cons, ih _ h.2, handPort_port_ne p (Ne.symm h.1)]

/-- LSU knows the lines that are out of service and sends no lead on them (R34, R39). -/
theorem handPort_all_out {ns : List Nat} (p : Part) {n : Nat} (hn : n ∈ ns) (hlt : n < 192)
    (hstate : (p.line n).state = .outOfService) :
    ((ns.foldl Part.handPort p).port n).outLead = false ∧ ((ns.foldl Part.handPort p).port n).outOfService = true := by
  induction ns generalizing p with
  | nil => cases hn
  | cons m ns ih =>
    by_cases hmem : n ∈ ns
    · exact ih _ hmem hstate
    · obtain rfl : n = m := (List.mem_cons.mp hn).resolve_right hmem
      rw [List.foldl_cons, handPort_all_port_ne _ hmem, handPort_outLead p hlt, handPort_outOfService p hlt, hstate]
      refine ⟨?_, rfl⟩
      unfold leadFor
      rw [hstate]

/-! #### The loss as CC takes it -/

/-- The lines of a highway that its loss takes out of service (R60). -/
def Part.linesLost (p : Part) (h : Nat) : List Nat := (highwayLines h).filter fun n => (p.line n).inService

theorem mem_linesLost {p : Part} {h n : Nat} :
    n ∈ p.linesLost h ↔ n / 48 = h ∧ (p.line n).state ≠ .unprovisioned ∧ (p.line n).state ≠ .outOfService := by
  simp [Part.linesLost, mem_highwayLines, Line.inService]

theorem linesLost_nodup (p : Part) (h : Nat) : (p.linesLost h).Nodup := (highwayLines_nodup h).filter _

theorem lineHighwayLostBody_sound {p : Part} {h : Nat} (hsound : ∀ n, n / 48 = h → (p.line n).damage = none) :
    ∃ early outbox, lineHighwayLostBody h p = Part.loseLines { p with early := early, outbox := outbox } (p.linesLost h) := by
  obtain ⟨e, o, hread⟩ := readForLoss_sound (p := p) fun n hn => hsound n (mem_highwayLines.mp hn)
  exact ⟨e, o, by rw [lineHighwayLostBody, hread]; rfl⟩

section Loss

variable {p : Part} {lost : List Nat}

theorem loseLines_cc : (p.loseLines lost).cc = (lost.foldl loseLine p).cc :=
  (congrArg Prod.fst (loseLines_afterEdit p lost)).trans (edit_cc _ _)

theorem loseLines_lists :
    (p.loseLines lost).mx.lists
      = (Part.edit { p with cc := (p.loseLines lost).cc } (lost.flatMap (lostOuts p))).mx.lists := by
  have hbeside := foldl_keeps Part.besidesLoss loseLine_besidesLoss lost p
  have hedit := edit_mx_congr (p := lost.foldl loseLine p) (q := { p with cc := (p.loseLines lost).cc }) loseLines_cc.symm
    (congrArg Part.cu hbeside :) (congrArg Part.mx hbeside :) (lost.flatMap (lostOuts p))
  exact (congrArg (fun x => x.2.1) (loseLines_afterEdit p lost)).trans (congrArg MX.lists hedit)

/-- Groups, guards, players, time and what is handed over are no part of a loss. -/
theorem loseLines_beside :
    (p.loseLines lost).cc.groups = p.cc.groups ∧ (p.loseLines lost).cc.guards = p.cc.guards
      ∧ (p.loseLines lost).cue = p.cue ∧ (p.loseLines lost).tu = p.tu ∧ (p.loseLines lost).events = p.events := by
  have hafter := loseLines_afterEdit p lost
  have hbeside := foldl_keeps Part.besidesLoss loseLine_besidesLoss lost p
  have hcue : (lost.foldl loseLine p).cue = p.cue := (congrArg Part.cue hbeside :)
  have htu : (lost.foldl loseLine p).tu = p.tu := (congrArg Part.tu hbeside :)
  have hevents : (lost.foldl loseLine p).events = p.events := (congrArg Part.events hbeside :)
  refine ⟨?_, ?_, ?_, ?_, ?_⟩
  · rw [loseLines_cc]; exact (congrArg (fun q : Part => q.cc.groups) hbeside :)
  · rw [loseLines_cc]; exact (congrArg (fun q : Part => q.cc.guards) hbeside :)
  · exact (congrArg (fun x => x.2.2.1) hafter).trans ((edit_cue _ _).trans hcue)
  · exact (congrArg (fun x => x.2.2.2.1) hafter).trans ((edit_tu _ _).trans htu)
  · exact (congrArg (fun x => x.2.2.2.2) hafter).trans ((edit_events _ _).trans hevents)

theorem loseLines_port_ne {n : Nat} (h : n ∉ lost) : (p.loseLines lost).port n = p.port n := by
  rw [Part.port, loseLines_ports]
  exact (handPort_all_port_ne _ h).trans (by rw [Part.port, lostAndLeft_ports]; rfl)

theorem loseLines_line (hnodup : lost.Nodup) (hlt : ∀ n ∈ lost, n < 192) (n : Nat) :
    (p.loseLines lost).line n = if n ∈ lost then (p.line n).highwayLost else p.line n := by
  rw [Part.line, loseLines_cc]
  exact loseLine_all_line hnodup hlt p n

theorem loseLines_not_mem (hnodup : lost.Nodup) {n : Nat} (hn : n ∈ lost) {o : Occupant} (ho : o ∈ (p.line n).occupants)
    (hd : o.2 ≠ .sk) : n ∉ ((p.loseLines lost).position o.1).linesOf o.2 := by
  rw [Part.position, loseLines_cc]
  exact loseLine_all_not_mem hnodup p hn ho hd

theorem loseLines_port (hnodup : lost.Nodup) (hlt : ∀ n ∈ lost, n < 192) {n : Nat} (hn : n ∈ lost) :
    ((p.loseLines lost).port n).outLead = false ∧ ((p.loseLines lost).port n).outOfService = true := by
  have hcc : (p.lostAndLeft lost).cc = (p.loseLines lost).cc :=
    congrArg Prod.fst ((lostAndLeft_afterEdit p lost).trans (loseLines_afterEdit p lost).symm)
  have hstate : ((p.lostAndLeft lost).line n).state = .outOfService := by
    rw [Part.line, hcc]
    exact congrArg Line.state ((loseLines_line hnodup hlt n).trans (if_pos hn))
  rw [Part.port, loseLines_ports]
  exact handPort_all_out _ hn (hlt n hn) hstate

end Loss

/-! #### The return as CC takes it -/

/-- Nothing but line records, ports and the event's notices differ. -/
def OnlyLines (p q : Part) : Prop :=
  q = { p with cc := { p.cc with lines := q.cc.lines }, ports := q.ports, early := q.early, outbox := q.outbox }

theorem OnlyLines.trans {p q r : Part} (h : OnlyLines p q) (k : OnlyLines q r) : OnlyLines p r := by
  unfold OnlyLines at *
  rw [k, h]

theorem leaves_onlyLines {s t : State} {p q : Part} (h : Leaves s t q) (hq : OnlyLines p q) :
    Leaves s t { p with cc := { p.cc with lines := t.part.cc.lines }, ports := t.part.ports } := by
  rw [leaves_cc h, leaves_ports h]
  unfold OnlyLines at hq
  generalize q.cc.lines = lines, q.ports = ports, q.early = early, q.outbox = outbox at hq ⊢
  subst hq
  exact h

/-- The line is back in service, its port sending no lead (R61, R182). -/
def LineBack (p q : Part) (n : Nat) : Prop :=
  q.line n = (p.line n).restored ∧ (q.port n).outLead = false ∧ (q.port n).outOfService = false

/-- The line and its port are left as they are. -/
def LineSame (p q : Part) (n : Nat) : Prop := q.line n = p.line n ∧ q.port n = p.port n

theorem highwayOut_iff {l : Line} : l.highwayOut = true ↔ l.state = .outOfService ∧ l.oosCause = some .highway := by
  simp [Line.highwayOut]

theorem restored_eq (l : Line) :
    l.restored = { prov := l.prov, state := if l.prov.kind = .hoot then .opened else .idle } := by
  unfold Line.restored Line.fresh
  cases l.prov.kind <;> rfl

theorem restored_state (l : Line) : l.restored.state = .opened ∨ l.restored.state = .idle := by
  rw [restored_eq]
  dsimp only
  split
  · exact .inl rfl
  · exact .inr rfl

/-- A line back in service is unoccupied and sends no burst, so that no kind of it sends a lead (R34). -/
theorem leadFor_restored (l : Line) : leadFor l.restored 0 = false := by
  unfold leadFor Line.restored Line.fresh
  cases l.prov.kind <;> rfl

theorem handPort_restored {p : Part} {n : Nat} (h : n < 192) {l : Line} :
    (((p.setLine n l.restored).handPort n).port n).outLead = false
      ∧ (((p.setLine n l.restored).handPort n).port n).outOfService = false := by
  have hstate := restored_state l
  rw [handPort_outLead _ h, handPort_outOfService _ h, line_setLine_same p h]
  refine ⟨?_, by rcases hstate with e | e <;> rw [e] <;> rfl⟩
  rw [if_neg (by rcases hstate with e | e <;> rw [e] <;> decide), leadFor_restored]

/-- One undamaged line takes the return: it comes back if it is out for the highway, and no other line or port is touched. -/
theorem lineRestored_spec {p : Part} {n : Nat} (h : n < 192) (hd : (p.line n).damage = none) :
    OnlyLines p (lineRestored p n)
      ∧ (if (p.line n).highwayOut then LineBack p (lineRestored p n) n else LineSame p (lineRestored p n) n)
      ∧ ∀ m, m ≠ n → LineSame p (lineRestored p n) m := by
  unfold lineRestored
  by_cases hout : (p.line n).highwayOut = true
  · have hline : ∀ e o, ({ p with early := e, outbox := o } : Part).line n = p.line n := fun _ _ => rfl
    rw [useLine_sound p hd, if_pos hout, if_pos hout]
    dsimp only
    rw [hline, if_pos hout]
    obtain ⟨hlead, hserv⟩ := handPort_restored (p := { p with early := p.early ++ p.outbox, outbox := [] }) h (l := p.line n)
    exact ⟨rfl, ⟨line_setLine_same p h _, hlead, hserv⟩,
      fun m hm => ⟨line_setLine_ne p (Ne.symm hm) _, handPort_port_ne _ (Ne.symm hm)⟩⟩
  · rw [if_neg hout, if_neg hout]
    exact ⟨rfl, ⟨rfl, rfl⟩, fun _ _ => ⟨rfl, rfl⟩⟩

/-- The undamaged lines of a return come back one after the other (R182). -/
theorem lineRestored_all {ns : List Nat} (hns : ns.Nodup) (hlt : ∀ n ∈ ns, n < 192) {p : Part}
    (hd : ∀ n ∈ ns, (p.line n).damage = none) :
    OnlyLines p (ns.foldl lineRestored p)
      ∧ ∀ n, if n ∈ ns ∧ (p.line n).highwayOut then LineBack p (ns.foldl lineRestored p) n
          else LineSame p (ns.foldl lineRestored p) n := by
  induction ns generalizing p with
  | nil => exact ⟨rfl, fun n => by rw [if_neg (by simp)]; exact ⟨rfl, rfl⟩⟩
  | cons m ns ih =>
    obtain ⟨hm, hns⟩ := List.nodup_cons.mp hns
    obtain ⟨honly, hself, hother⟩ := lineRestored_spec (hlt m List.mem_cons_self) (hd m List.mem_cons_self)
    have hline : ∀ n, n ≠ m → (lineRestored p m).line n = p.line n := fun n hn => (hother n hn).1
    obtain ⟨hrest, hall⟩ := ih hns (fun k hk => hlt k (List.mem_cons_of_mem _ hk)) (p := lineRestored p m) fun k hk => by
      rw [hline k fun e => hm (e ▸ hk)]
      exact hd k (List.mem_cons_of_mem _ hk)
    refine ⟨honly.trans hrest, fun n => ?_⟩
    have hn := hall n
    rw [List.foldl_cons]
    by_cases hnm : n = m
    · subst hnm
      rw [if_neg fun h => hm h.1] at hn
      simp only [List.mem_cons_self, true_and, LineBack, LineSame] at hself hn ⊢
      rwa [hn.1, hn.2]
    · obtain ⟨hsameLine, hsamePort⟩ := hother n hnm
      simp only [List.mem_cons, hnm, false_or, LineBack, LineSame] at hn ⊢
      rwa [hsameLine, hsamePort] at hn

/-- Settles O56: the records being sound, reading them changes nothing, and the lines of the highway change one by one. -/
theorem highwayTakesItsLines : Obligations.HighwayTakesItsLines := by
  refine ⟨fun h s => modPorts_leaves (f := Port.lose) rfl, fun h s => modPorts_leaves (f := Port.restart) rfl,
    fun h s hh hd => ?_, fun h s hh hd => ?_⟩
  · have hleaves := eventRun_leaves (.lineHighwayLost h) (lineHighwayLostBody h) s
    dsimp only
    generalize hp : s.part.took (.lineHighwayLost h) = p at hleaves ⊢
    obtain ⟨e, o, hbody⟩ := lineHighwayLostBody_sound (p := p) (by rw [← hp]; exact hd)
    rw [hbody] at hleaves
    have hnodup := linesLost_nodup p h
    have hlt : ∀ n ∈ p.linesLost h, n < 192 := fun n hn => by have := (mem_linesLost.mp hn).1; omega
    obtain ⟨hgroups, hguards, hcue, htu, hevents⟩ :=
      loseLines_beside (p := { p with early := e, outbox := o }) (lost := p.linesLost h)
    have hline := fun n => (leaves_line hleaves n).trans (loseLines_line hnodup hlt n)
    have hcc := leaves_cc hleaves
    refine ⟨_, rfl, fun n hn => ⟨fun hout => ?_, fun hprov hserv => ?_⟩, fun n hn => ?_, ?_, ?_, ?_, ?_, ?_, ?_, ?_, ?_⟩
    · exact (hline n).trans (if_neg fun hm => by
        obtain ⟨-, hprov, hserv⟩ := mem_linesLost.mp hm
        exact hout.elim hprov hserv)
    · have hm : n ∈ p.linesLost h := mem_linesLost.mpr ⟨hn, hprov, hserv⟩
      refine ⟨(hline n).trans (if_pos hm), ?_, ?_, fun o ho hdev => ?_⟩
      · rw [leaves_port hleaves]; exact (loseLines_port hnodup hlt hm).1
      · rw [leaves_port hleaves]; exact (loseLines_port hnodup hlt hm).2
      · rw [leaves_position hleaves]; exact loseLines_not_mem hnodup hm ho hdev
    · have hm : n ∉ p.linesLost h := fun hm => hn (mem_linesLost.mp hm).1
      refine ⟨(hline n).trans (if_neg hm), ?_⟩
      rw [leaves_port hleaves]; exact loseLines_port_ne hm
    · rw [leaves_mx hleaves, loseLines_lists, hcc]
      have houts : lostOuts { p with early := e, outbox := o } = lostOuts p := rfl
      rw [houts]
      exact congrArg MX.lists (edit_mx_congr (by rfl) (by rfl) (by rfl) _)
    · rw [hcc]; exact hgroups
    · rw [hcc]; exact hguards
    · rw [leaves_cue hleaves]; exact hcue
    · rw [leaves_tu hleaves]; exact htu
    · rw [leaves_events hleaves]; exact hevents
    all_goals obtain ⟨-, -, -, hstill, hpending⟩ := hleaves
    · exact hstill
    · exact hpending
  · have hleaves := eventRun_leaves (.lineHighwayRestored h) (fun p => (highwayLines h).foldl lineRestored p) s
    dsimp only
    generalize hp : s.part.took (.lineHighwayRestored h) = p at hleaves ⊢
    have hlt : ∀ n ∈ highwayLines h, n < 192 := fun n hn => by have := mem_highwayLines.mp hn; omega
    obtain ⟨honly, hall⟩ := lineRestored_all (highwayLines_nodup h) hlt (p := p) fun n hn => by
      rw [← hp]
      exact hd n (mem_highwayLines.mp hn)
    refine ⟨_, rfl, fun n hn => ⟨fun hstate hcause => ?_, fun hother => ?_⟩, fun n hn => ?_, leaves_onlyLines hleaves honly⟩
    all_goals
      have hn' := hall n
      rw [leaves_line hleaves, leaves_port hleaves]
    · rw [if_pos ⟨mem_highwayLines.mpr hn, highwayOut_iff.mpr ⟨hstate, hcause⟩⟩] at hn'
      obtain ⟨hback, hlead, hserv⟩ := hn'
      exact ⟨hback.trans (restored_eq _), hlead, hserv⟩
    · rwa [if_neg fun hout => by
        obtain ⟨hstate, hcause⟩ := highwayOut_iff.mp hout.2
        exact hother.elim (· hstate) (· hcause)] at hn'
    · rwa [if_neg fun hout => hn (mem_highwayLines.mp hout.1)] at hn'

/-! ### One frame of a port, a player and a highway (R24 to R26, R32, R34, R35, R130, R179, R180, R183) -/

theorem bursting_iff {q : Port} : q.bursting = true ↔ q.kind = .manual ∧ q.outLead = true ∧ 0 < q.burst := by
  simp [Port.bursting, and_assoc]

theorem changes_iff {q : Port} {raw : Bool} :
    q.changes raw = true ↔ (q.sampling = true ∧ q.sense1 raw ≠ q.debounced) ∧ 16 * q.debounce ≤ q.stable + 1 := by
  unfold Port.changes Port.holdFrames
  simp

/-- A port's timers and its debounce over one frame (R25, R26, R32, R34, R35). -/
theorem portFrame_eq (q : Port) (raw : Bool) :
    q.frame raw = { q with
      sentBit := q.outLead != (q.sense == .inverted),
      burst := if q.kind = .manual ∧ q.outLead = true ∧ 0 < q.burst then q.burst - 1 else q.burst,
      inTimer := q.inTimer.map fun k => min 32001 (k + 1),
      sensed := if q.sampling then q.sense1 raw else q.sensed,
      stable := if q.sampling = false then q.stable
        else if (q.sampling = true ∧ q.sense1 raw ≠ q.debounced) ∧ q.stable + 1 < 16 * q.debounce then q.stable + 1
        else 0 } := by
  unfold Port.frame
  simp only [bursting_iff, changes_iff]
  cases hs : q.sampling with
  | false => simp
  | true =>
    by_cases hb : q.sense1 raw = q.debounced
    · simp [hb]
    · by_cases hd : q.stable + 1 < 16 * q.debounce
      · simp [hb, hd, Nat.not_le.mpr hd]
      · simp [hb, hd, Nat.not_lt.mp hd]

/-- A port's frame hands LSU the change it comes to and the end of its burst (R26, R35). -/
theorem mem_portFrameEvents {q : Port} {n : Nat} {raw : Bool} :
    (q.changes raw = true → .debouncedChange n (q.sense1 raw) ∈ q.frameEvents n raw)
      ∧ (q.bursting = true → q.burst = 1 → .outgoingBurstEnd n ∈ q.frameEvents n raw) := by
  refine ⟨fun hc => ?_, fun hb h1 => ?_⟩
  · simp [Port.frameEvents, hc]
  · simp [Port.frameEvents, hb, h1]

theorem offer_eq (q : Player) :
    q.offer = if q.playing = true ∧ ¬ q.underrun = true then vget (vget q.ring q.block (Vector.replicate 32 0)) q.sample 0
      else 0 := by
  simp [Player.offer]

/-- Taking a frame leaves a highway's state and its counts (R179 step 1). -/
theorem take_keeps (w : Highway) :
    w.take.state = w.state ∧ w.take.gap = w.gap ∧ w.take.window = w.window ∧ w.take.arrivals = w.arrivals := by
  unfold Highway.take
  split
  · exact ⟨rfl, rfl, rfl, rfl⟩
  · split <;> exact ⟨rfl, rfl, rfl, rfl⟩

/-- A highway takes its next frame and counts its gap and its window (R179, R180, R183). -/
theorem count_take_eq (w : Highway) :
    w.take.count =
      let again := 16000 ≤ w.window + 1 ∨ (w.state = .lost ∧ 8 ≤ w.gap + 1)
      { w.take with
        gap := min 8 (w.gap + 1), window := if again then 0 else w.window + 1, arrivals := if again then 0 else w.arrivals } := by
  obtain ⟨hstate, hgap, hwindow, harrivals⟩ := take_keeps w
  have hagain : (decide (16000 ≤ w.window + 1) || (w.state == .lost && min 8 (w.gap + 1) == 8)) = true
      ↔ 16000 ≤ w.window + 1 ∨ (w.state = .lost ∧ 8 ≤ w.gap + 1) := by
    have hmin : min 8 (w.gap + 1) = 8 ↔ 8 ≤ w.gap + 1 := by omega
    simp [hmin]
  simp only [Highway.count, hstate, hgap, hwindow, harrivals, hagain]

theorem mem_highwayFrameEvents {w : Highway} {h : Nat} :
    (16000 ≤ w.window + 1 → .highwayWindowEnd h w.arrivals ∈ w.take.frameEvents h)
      ∧ (w.state ≠ .lost → 8 ≤ w.gap + 1 → .highwayGapLoss h ∈ w.take.frameEvents h) := by
  obtain ⟨hstate, hgap, hwindow, harrivals⟩ := take_keeps w
  simp only [Highway.frameEvents, hstate, hgap, hwindow, harrivals]
  refine ⟨fun hw => ?_, fun hs hg => ?_⟩
  · rw [if_pos hw]
    exact List.mem_append_left _ (List.mem_singleton.mpr rfl)
  · rw [if_pos (And.intro hs hg)]
    exact List.mem_append_right _ (List.mem_singleton.mpr rfl)

/-! ### What the rest of a frame leaves alone -/

/-- The work that leads from `p` to `q` moves no port, player or highway and no digest, and takes nothing of what is handed
over. -/
structure WorksBeside (p q : Part) : Prop where
  ports : q.ports = p.ports
  cue : q.cue = p.cue
  highways : q.au.highways = p.au.highways
  digest : q.cc.digest = p.cc.digest
  events : p.events ⊆ q.events

theorem WorksBeside.refl (p : Part) : WorksBeside p p := ⟨rfl, rfl, rfl, rfl, List.Subset.refl _⟩

theorem WorksBeside.trans {p q r : Part} (h : WorksBeside p q) (k : WorksBeside q r) : WorksBeside p r :=
  ⟨k.ports.trans h.ports, k.cue.trans h.cue, k.highways.trans h.highways, k.digest.trans h.digest,
    fun _ he => k.events (h.events he)⟩

theorem worksBeside_foldl {β : Type} {g : Part → β → Part} (h : ∀ p b, WorksBeside p (g p b)) (l : List β) (p : Part) :
    WorksBeside p (l.foldl g p) := foldl_relates .refl .trans h l p

theorem strike_worksBeside (p : Part) (u : Upset) : WorksBeside p (p.strike u) := by
  cases u with
  | line => exact ⟨rfl, rfl, rfl, rfl, List.Subset.refl _⟩
  | mix =>
    unfold Part.strike
    dsimp only
    split <;> exact ⟨rfl, rfl, rfl, rfl, List.Subset.refl _⟩

theorem checkMix_worksBeside (p : Part) (word : Nat) (b : FoundBy) : WorksBeside p (checkMix p word b) := by
  unfold checkMix
  split
  · exact .refl p
  · split
    · exact .refl p
    · exact ⟨rfl, rfl, rfl, rfl, List.subset_append_left _ _⟩

theorem useChecks_worksBeside (p : Part) : WorksBeside p p.useChecks :=
  worksBeside_foldl (fun q w => by
    split
    · exact checkMix_worksBeside q w .use
    · exact .refl q) _ p

theorem mixFrame_worksBeside (p : Part) (mics : Vector Sample 72) : WorksBeside p (p.mixFrame mics) := by
  have hheard : WorksBeside p { p.stage2 mics with mx := (p.stage2 mics).mx.stage3 } :=
    ⟨rfl, rfl, rfl, rfl, fun _ he => List.mem_append_left _ (List.mem_append_left _ he)⟩
  obtain ⟨hports, hcue, hhighways, hdigest, hevents⟩ := hheard.trans (useChecks_worksBeside _)
  exact ⟨hports, hcue, hhighways, hdigest, hevents⟩

theorem probeFrame_worksBeside (p : Part) : WorksBeside p p.probeFrame :=
  ⟨rfl, rfl, rfl, rfl, List.subset_append_left _ _⟩

theorem meterFrame_worksBeside (p : Part) (mics : Vector Sample 72) : WorksBeside p (p.meterFrame mics) :=
  ⟨rfl, rfl, rfl, rfl, List.subset_append_left _ _⟩

theorem sampleRrdy_worksBeside (p : Part) (level : Bool) : WorksBeside p (p.sampleRrdy level) := by
  unfold Part.sampleRrdy Part.firstRrdy
  split
  · rw [setCause_keeps]; exact ⟨rfl, rfl, rfl, rfl, List.Subset.refl _⟩
  · split
    · exact ⟨rfl, rfl, rfl, rfl, List.Subset.refl _⟩
    · split
      · exact ⟨rfl, rfl, rfl, rfl, List.subset_append_left _ _⟩
      · exact ⟨rfl, rfl, rfl, rfl, List.Subset.refl _⟩

theorem frameTime_worksBeside (p : Part) : WorksBeside p p.frameTime := by
  unfold Part.frameTime
  split <;> exact ⟨rfl, rfl, rfl, rfl, List.subset_append_left _ _⟩

theorem countFrame_worksBeside (p : Part) : WorksBeside p p.countFrame :=
  ⟨rfl, rfl, rfl, rfl, fun _ he => List.mem_append_left _ (List.mem_append_left _ he)⟩

theorem digestFrame_idle {p : Part} (h : p.cc.digest = none) : p.digestFrame = p := by
  simp only [Part.digestFrame, h]

theorem scrubFrame_worksBeside (p : Part) : WorksBeside p p.scrubFrame :=
  ⟨rfl, rfl, rfl, rfl, List.subset_append_left _ _⟩

/-- The frame's work after the highways' counts, no digest running. -/
theorem lateFrame_worksBeside {p : Part} (h : p.cc.digest = none) (i : FrameInput) :
    WorksBeside p
      (i.late.foldl Part.strike ((p.sampleRrdy i.rrdy).frameTime.countFrame.digestFrame).scrubFrame) := by
  have hcount := ((sampleRrdy_worksBeside p i.rrdy).trans (frameTime_worksBeside _)).trans (countFrame_worksBeside _)
  rw [digestFrame_idle (hcount.digest.trans h)]
  exact (hcount.trans (scrubFrame_worksBeside _)).trans (worksBeside_foldl strike_worksBeside i.late _)

/-! ### The frame at LSU, CUE and AU's highways -/

/-- The part once the frame's work at LSU, CUE and MX, the probes and the meters is done. -/
def Part.mixedFrame (p : Part) (i : FrameInput) : Part :=
  (((i.upsets.foldl Part.strike p).takeFrames.leadFrame.cueFrame.mixFrame i.mics).probeFrame.meterFrame i.mics)

theorem mixedFrame_worksBeside (p : Part) (i : FrameInput) :
    WorksBeside (i.upsets.foldl Part.strike p).takeFrames.leadFrame.cueFrame (p.mixedFrame i) :=
  ((mixFrame_worksBeside _ _).trans (probeFrame_worksBeside _)).trans (meterFrame_worksBeside _ _)

theorem vget_map_of_lt {α β : Type} {n : Nat} (v : Vector α n) (f : α → β) {i : Nat} (h : i < n) (d : α) (e : β) :
    vget (v.map f) i e = f (vget v i d) := by
  rw [vget_of_lt _ h, vget_of_lt _ h, Vector.getElem_map]

/-- The part as a frame's own work at LSU, CUE and the highways finds and leaves it, by the part before the frame. -/
structure FrameMoves (p q : Part) : Prop where
  highway : ∀ h, h < 4 → q.highway h = (p.highway h).take.count
  port : ∀ n, n < 192 → q.port n = (p.port n).frame (rawLead q n)
  player : ∀ k, k < 8 → q.player k = (p.player k).frame
  portEvents : ∀ n, n < 192 → (p.port n).frameEvents n (rawLead q n) ⊆ q.events
  boundary : ∀ k, k < 8 → (p.player k).atEnd = true → .cueBlockBoundary k ∈ q.events
  highwayEvents : ∀ h, h < 4 → (p.highway h).take.frameEvents h ⊆ q.events

/-- A frame on which no digest runs: what damage strikes and what the other blocks do leaves this work as it is. -/
theorem frame_moves {p : Part} (h : p.cc.digest = none) (i : FrameInput) : FrameMoves p (p.frame i) := by
  have hstruck := worksBeside_foldl strike_worksBeside i.upsets p
  have hmixed := mixedFrame_worksBeside p i
  have hlate : WorksBeside (p.mixedFrame i).highwayFrame (p.frame i) :=
    lateFrame_worksBeside (p := (p.mixedFrame i).highwayFrame) (hmixed.digest.trans (hstruck.digest.trans h)) i
  generalize i.upsets.foldl Part.strike p = p0 at hstruck hmixed
  have hhighways : (p.frame i).au.highways = (p.au.highways.map Highway.take).map Highway.count := by
    rw [hlate.highways, ← hstruck.highways]
    exact congrArg (Vector.map Highway.count) hmixed.highways
  have hports : (p.frame i).ports = p.ports.mapIdx fun n q => q.frame (rawLead p0.takeFrames n) := by
    rw [hlate.ports, ← hstruck.ports]
    exact hmixed.ports
  have hplayers : (p.frame i).cue.players = p.cue.players.map Player.frame := by
    rw [hlate.cue, ← hstruck.cue]
    exact congrArg CUE.players hmixed.cue
  have hhighway : ∀ h, h < 4 → (p.frame i).highway h = (p.highway h).take.count := fun h hh => by
    rw [Part.highway, hhighways, vget_map_of_lt _ _ hh {}, vget_map_of_lt _ _ hh {}]; rfl
  have hraw : ∀ n, n < 192 → rawLead p0.takeFrames n = rawLead (p.frame i) n := fun n hn => by
    have hw : hwOf n < 4 := by unfold hwOf; omega
    unfold rawLead
    rw [hhighway _ hw, Part.highway, Part.takeFrames, hstruck.highways, vget_map_of_lt _ _ hw {}]; rfl
  have hportSame : ∀ n, p0.port n = p.port n := fun n => by rw [Part.port, Part.port, hstruck.ports]
  have hplayerSame : ∀ k, p0.player k = p.player k := fun k => by rw [Part.player, Part.player, hstruck.cue]
  have hled : ∀ e, e ∈ p0.takeFrames.leadFrame.cueFrame.events → e ∈ (p.frame i).events := fun e he =>
    hlate.events (List.mem_append_left _ (hmixed.events he))
  refine ⟨hhighway, fun n hn => ?_, fun k hk => ?_, fun n hn e he => ?_, fun k hk hend => ?_, fun h hh e he => ?_⟩
  · rw [Part.port, hports, vget_mapIdx _ _ hn {}, hraw n hn]; rfl
  · rw [Part.player, hplayers, vget_map_of_lt _ _ hk {}]; rfl
  · refine hled e (List.mem_append_left _ (List.mem_append_right _ (List.mem_flatMap.mpr ⟨n, List.mem_range.mpr hn, ?_⟩)))
    rw [hraw n hn]
    exact hportSame n ▸ he
  · refine hled _ (List.mem_append_right _ (List.mem_flatMap.mpr ⟨k, List.mem_range.mpr hk, ?_⟩))
    have hatEnd : (p0.takeFrames.leadFrame.player k).atEnd = true := (congrArg Player.atEnd (hplayerSame k)).trans hend
    rw [if_pos hatEnd]
    exact List.mem_singleton.mpr rfl
  · refine hlate.events (List.mem_append_right _ (List.mem_flatMap.mpr ⟨h, List.mem_range.mpr hh, ?_⟩))
    have htaken : (p.mixedFrame i).highway h = (p.highway h).take := by
      rw [Part.highway, hmixed.highways]
      exact (vget_map_of_lt _ _ hh {} _).trans (by rw [hstruck.highways]; rfl)
    rw [htaken]
    exact he

theorem settle_idle {s : State} (h : s.part.events = []) (fuel : Nat) : s.settle fuel = s := by
  cases fuel with
  | zero => rfl
  | succ fuel => simp only [State.settle, h]

/-- A frame before which nothing waits does its work on the blocks as they stand, and a start's READY moves no block but the
conditions (R112, R207). -/
theorem frame_leaves {s : State} (h : s.part.events = []) (i : FrameInput) :
    ∃ t, exec (.referenceFrame i) s = .next t ∧ t.part.ports = (s.part.frame i).ports ∧ t.part.cue = (s.part.frame i).cue
      ∧ t.part.au = (s.part.frame i).au ∧ t.part.events = (s.part.frame i).events := by
  have hleaves := finish_leaves { s with part := s.part.frame i }
  have hexec : exec (.referenceFrame i) s = .next (State.finish { s with part := s.part.frame i }).countStart := by
    show Host.Outcome.next (s.frame i).countStart = _
    rw [State.frame, settle_idle h]
  refine ⟨_, hexec, ?_, ?_, ?_, ?_⟩ <;> rw [countStart_part]
  · exact leaves_ports hleaves
  · exact leaves_cue hleaves
  · exact leaves_au hleaves
  · exact leaves_events hleaves

theorem FrameMoves.congr {p q r : Part} (h : FrameMoves p q) (hports : r.ports = q.ports) (hcue : r.cue = q.cue)
    (hau : r.au = q.au) (hevents : r.events = q.events) : FrameMoves p r := by
  have hr : r = { r with ports := q.ports, cue := q.cue, au := q.au, events := q.events } := by
    rw [← hports, ← hcue, ← hau, ← hevents]
  rw [hr]
  exact ⟨h.highway, h.port, h.player, h.portEvents, h.boundary, h.highwayEvents⟩

/-- Settles O58, from what a frame moves at each port, player and highway. -/
theorem frameMovesPortsPlayersHighways : Obligations.FrameMovesPortsPlayersHighways := by
  intro i s hidle hdigest
  obtain ⟨t, hexec, hports, hcue, hau, hevents⟩ := frame_leaves hidle i
  have hmoves := (frame_moves hdigest i).congr hports hcue hau hevents
  refine ⟨t, hexec, fun n hn => ⟨?_, fun hheld hlong => ?_, fun hburst hone => ?_⟩, fun k hk => ⟨?_, fun hplay hlast => ?_⟩,
    fun h hh => ⟨?_, fun hwindow => ?_, fun hstate hgap => ?_⟩⟩
  · exact (hmoves.port n hn).trans (portFrame_eq _ _)
  · exact hmoves.portEvents n hn (mem_portFrameEvents.1 (changes_iff.mpr ⟨hheld, hlong⟩))
  · exact hmoves.portEvents n hn (mem_portFrameEvents.2 (bursting_iff.mpr hburst) hone)
  · rw [hmoves.player k hk, Player.frame, offer_eq]
  · exact hmoves.boundary k hk (by simp [Player.atEnd, hplay, hlast])
  · exact (hmoves.highway h hh).trans (count_take_eq _)
  · exact hmoves.highwayEvents h hh (mem_highwayFrameEvents.1 hwindow)
  · exact hmoves.highwayEvents h hh (mem_highwayFrameEvents.2 hstate hgap)

end Sys2Proof.Machine
end

section
/-! Proof of the statement about a frame's sums and measures (R109, R113, R119 to R122, R186, R187, R189): what the frame's
work before stage 6 and after it leaves alone, that the same sources are heard from stage 6 to the end of the frame, and what
stage 6, the probes and the meters write. -/

namespace Sys2Proof.Machine

open Sys2Proof

/-! ### What sums and measures are written from, and what leaves them alone -/

/-- The work that leads from `p` to `q` sets no clip flag and adds to no probe and no meter. -/
structure KeepsMeasures (p q : Part) : Prop where
  clip : q.mx.clip = p.mx.clip
  probes : q.au.probes = p.au.probes
  meters : q.au.meters = p.au.meters

theorem KeepsMeasures.refl (p : Part) : KeepsMeasures p p := ⟨rfl, rfl, rfl⟩

theorem KeepsMeasures.trans {p q r : Part} (h : KeepsMeasures p q) (k : KeepsMeasures q r) : KeepsMeasures p r :=
  ⟨k.clip.trans h.clip, k.probes.trans h.probes, k.meters.trans h.meters⟩

/-- The work that leads from `p` to `q` keeps the measures, and it changes no line's state, no mix list, no talker of a bus
and no output. -/
structure KeepsSums (p q : Part) : Prop extends KeepsMeasures p q where
  state : ∀ n, (q.line n).state = (p.line n).state
  lists : q.mx.lists = p.mx.lists
  talkers : q.mx.talkers = p.mx.talkers
  outputs : q.mx.outputs = p.mx.outputs

theorem KeepsSums.refl (p : Part) : KeepsSums p p := ⟨.refl p, fun _ => rfl, rfl, rfl, rfl⟩

theorem KeepsSums.trans {p q r : Part} (h : KeepsSums p q) (k : KeepsSums q r) : KeepsSums p r :=
  ⟨h.toKeepsMeasures.trans k.toKeepsMeasures, fun n => (k.state n).trans (h.state n), k.lists.trans h.lists,
    k.talkers.trans h.talkers, k.outputs.trans h.outputs⟩

/-- A line's record is replaced by one with the same state. -/
theorem setLine_state {p : Part} {n : Nat} {x : Line} (h : x.state = (p.line n).state) (m : Nat) :
    ((p.setLine n x).line m).state = (p.line m).state := by
  by_cases hm : n = m
  · subst hm
    by_cases hn : n < 192
    · rw [line_setLine_same p hn, h]
    · rw [Part.setLine, Part.line, vset_of_ge _ (Nat.le_of_not_lt hn), Part.line]
  · rw [line_setLine_ne p hm]

/-- Damage to a line's record strikes none of its live fields. -/
theorem strike_keepsSums (p : Part) (u : Upset) : KeepsSums p (p.strike u) := by
  cases u with
  | line n dbl syn reads =>
    exact ⟨⟨rfl, rfl, rfl⟩, setLine_state rfl, rfl, rfl, rfl⟩
  | mix i dbl syn =>
    unfold Part.strike
    dsimp only
    split
    · exact ⟨⟨rfl, rfl, rfl⟩, fun _ => rfl, rfl, rfl, rfl⟩
    · exact .refl p

theorem strikes_keepSums (us : List Upset) (p : Part) : KeepsSums p (us.foldl Part.strike p) :=
  foldl_relates .refl .trans strike_keepsSums us p

theorem poison_clip (m : MX) (word : Nat) : (m.poison word).clip = m.clip := by
  unfold MX.poison
  split <;> rfl

theorem checkMix_keepsMeasures (p : Part) (word : Nat) (b : FoundBy) : KeepsMeasures p (checkMix p word b) := by
  unfold checkMix
  split
  · exact .refl p
  · rename_i d _
    split
    · exact .refl p
    · refine ⟨?_, rfl, rfl⟩
      show (if d.double then _ else _ : MX).clip = _
      split
      · exact poison_clip _ _
      · rfl

theorem useChecks_keepsMeasures (p : Part) : KeepsMeasures p p.useChecks :=
  foldl_relates .refl .trans (fun q w => by
    split
    · exact checkMix_keepsMeasures q w .use
    · exact .refl q) _ p

theorem sampleRrdy_keepsSums (p : Part) (level : Bool) : KeepsSums p (p.sampleRrdy level) := by
  unfold Part.sampleRrdy Part.firstRrdy
  split
  · rw [setCause_keeps]; exact ⟨⟨rfl, rfl, rfl⟩, fun _ => rfl, rfl, rfl, rfl⟩
  · split
    · exact ⟨⟨rfl, rfl, rfl⟩, fun _ => rfl, rfl, rfl, rfl⟩
    · split <;> exact ⟨⟨rfl, rfl, rfl⟩, fun _ => rfl, rfl, rfl, rfl⟩

theorem frameTime_keepsSums (p : Part) : KeepsSums p p.frameTime := by
  unfold Part.frameTime
  split <;> exact ⟨⟨rfl, rfl, rfl⟩, fun _ => rfl, rfl, rfl, rfl⟩

/-- CC counts deadlines and idle talkers; no line changes its state on that (R42, R84). -/
theorem countFrame_keepsSums (p : Part) : KeepsSums p p.countFrame :=
  ⟨⟨rfl, rfl, rfl⟩, fun n => (congrArg Line.state (vget_map p.cc.lines Line.frame n {}) :), rfl, rfl, rfl⟩

theorem scrubFrame_keepsSums (p : Part) : KeepsSums p p.scrubFrame :=
  ⟨⟨rfl, rfl, rfl⟩, fun _ => rfl, rfl, rfl, rfl⟩

/-- The frame's work after the highways' counts, no digest running. -/
theorem lateFrame_keepsSums {p : Part} (h : p.cc.digest = none) (i : FrameInput) :
    KeepsSums p (i.late.foldl Part.strike ((p.sampleRrdy i.rrdy).frameTime.countFrame.digestFrame).scrubFrame) := by
  have hdigest : (p.sampleRrdy i.rrdy).frameTime.countFrame.cc.digest = none :=
    (((sampleRrdy_worksBeside p i.rrdy).trans (frameTime_worksBeside _)).trans (countFrame_worksBeside _)).digest.trans h
  rw [digestFrame_idle hdigest]
  exact ((((sampleRrdy_keepsSums p i.rrdy).trans (frameTime_keepsSums _)).trans (countFrame_keepsSums _)).trans
    (scrubFrame_keepsSums _)).trans (strikes_keepSums i.late _)

/-! ### The same sources are heard (R113, R119, R120) -/

/-- The blocks in which the same is received on every line, offered by every player and spoken on every bus. -/
structure SameSources (p q : Part) : Prop where
  receive : ∀ n, lineReceive q n = lineReceive p n
  cue : q.cue = p.cue
  talkers : q.mx.talkers = p.mx.talkers

theorem SameSources.trans {p q r : Part} (h : SameSources p q) (k : SameSources q r) : SameSources p r :=
  ⟨fun n => (k.receive n).trans (h.receive n), k.cue.trans h.cue, k.talkers.trans h.talkers⟩

theorem lineReceive_congr {p q : Part} {n : Nat} (hline : (q.line n).state = (p.line n).state)
    (hstate : (q.highway (hwOf n)).state = (p.highway (hwOf n)).state)
    (hcurrent : (q.highway (hwOf n)).current = (p.highway (hwOf n)).current) : lineReceive q n = lineReceive p n := by
  simp only [lineReceive, hline, hstate, hcurrent]

/-- Work beside the players and highways that keeps the sums' inputs keeps what is heard. -/
theorem WorksBeside.sameSources {p q : Part} (h : WorksBeside p q) (k : KeepsSums p q) : SameSources p q := by
  have hhighway : ∀ n, q.highway n = p.highway n := fun _ => by rw [Part.highway, Part.highway, h.highways]
  exact ⟨fun n => lineReceive_congr (k.state n) (by rw [hhighway]) (by rw [hhighway]), h.cue, k.talkers⟩

/-- A highway's counts leave its state and its current frame (R179 steps 2 to 4). -/
theorem highwayFrame_highway (p : Part) (n : Nat) :
    (p.highwayFrame.highway n).state = (p.highway n).state ∧ (p.highwayFrame.highway n).current = (p.highway n).current := by
  unfold Part.highwayFrame Part.highway
  by_cases hn : n < 4
  · rw [vget_map_of_lt _ _ hn {}]; exact ⟨rfl, rfl⟩
  · simp only [vget_of_ge _ (Nat.le_of_not_lt hn), and_self]

theorem highwayFrame_sameSources (p : Part) : SameSources p p.highwayFrame :=
  ⟨fun _ => lineReceive_congr rfl (highwayFrame_highway p _).1 (highwayFrame_highway p _).2, rfl, rfl⟩

section Heard

variable {p q : Part} (h : SameSources p q) (mics : Vector Sample 72)

include h

theorem SameSources.value (s : Nat) : ({ part := q, mics := mics } : Sources).value s
    = ({ part := p, mics := mics } : Sources).value s := by
  simp only [Sources.value, h.receive, Part.player, h.cue]

theorem SameSources.bus (g : Nat) (pos : Option Nat) : ({ part := q, mics := mics } : Sources).bus g pos
    = ({ part := p, mics := mics } : Sources).bus g pos := by
  have hterm : ({ part := q, mics := mics } : Sources).term = ({ part := p, mics := mics } : Sources).term :=
    funext fun b => by rw [Sources.term, Sources.term, h.value mics]
  simp only [Sources.bus, Part.busTalkers, h.talkers, hterm]

theorem SameSources.metered (s : Nat) : ({ part := q, mics := mics } : Sources).metered s
    = ({ part := p, mics := mics } : Sources).metered s := by
  simp only [Sources.metered, h.bus mics, h.value mics]

theorem SameSources.sum (hlists : q.mx.lists = p.mx.lists) (o : Nat) :
    ({ part := q, mics := mics } : Sources).sum o = ({ part := p, mics := mics } : Sources).sum o := by
  simp only [Sources.sum, Sources.heard, Part.mixList, hlists, h.bus mics, h.value mics]

end Heard

/-! ### Stage 6, the probes and the meters -/

theorem stage6_outputs (p : Part) (mics : Vector Sample 72) {o : Nat} (ho : o < 320) :
    vget (p.stage6 mics).mx.outputs o 0 = toSample (({ part := p, mics := mics } : Sources).output o).1
      ∧ vget (p.stage6 mics).mx.clip o false
        = (vget p.mx.clip o false || (({ part := p, mics := mics } : Sources).output o).2) := by
  unfold Part.stage6
  dsimp only
  rw [vget_map_of_lt _ _ ho (0, false), vget_mapIdx _ _ ho false, vget_of_lt _ ho, Vector.getElem_ofFn]
  exact ⟨rfl, rfl⟩

/-- No probe stands on the output's line, or the output is no send (R122). -/
theorem probeOn_eq_none {p : Part} {o : Nat} (h : ∀ r ∈ p.au.probes, o ≠ 96 + r.line ∨ 288 ≤ o) : p.probeOn o = none := by
  unfold Part.probeOn Part.probeOf
  split
  · refine List.find?_eq_none.mpr fun r hr => ?_
    have := h r hr
    simp only [beq_iff_eq]
    omega
  · rfl

theorem probeOn_send (p : Part) {n : Nat} (h : n < 192) : p.probeOn (96 + n) = p.probeOf n := by
  have hsend : 96 ≤ 96 + n ∧ 96 + n < 288 := by omega
  rw [Part.probeOn, if_pos hsend, Nat.add_sub_cancel_left]

theorem tone_eq (r : Probe) : r.tone = if r.phase = .toneOn then toneTable.getD (r.done % 16) 0 else 0 := by
  unfold Probe.tone toneSample
  cases r.phase <;> rfl

theorem probeFrame_eq (r : Probe) (receive : Int) :
    r.frame receive = if r.phase = .toneOn then { r with done := r.done + 1, onSum := r.onSum + receive.natAbs }
      else { r with done := r.done + 1, offSum := r.offSum + receive.natAbs } := by
  unfold Probe.frame
  cases r.phase <;> rfl

/-- A limited value differs from the value exactly when that lies outside 16 bits (R122). -/
theorem limit16_ne_self (x : Int) : (limit16 x != x) = decide (x < -32768 ∨ 32767 < x) := by
  rw [Bool.eq_iff_iff, bne_iff_ne, decide_eq_true_iff]
  unfold limit16 clampInt
  omega

theorem meterFrame_counting {y : Meter} (value : Int) (h : y.counting = true) (hn : y.count < 4294967295) :
    y.frame value = { y with count := y.count + 1, sum := y.sum + value.natAbs } := if_pos ⟨h, hn⟩

/-- A meter that has stopped, or whose count is full, stands still (R189). -/
theorem meterFrame_still {y : Meter} (value : Int) (h : y.counting = false ∨ y.count = 4294967295) :
    y.frame value = y := by
  refine if_neg fun ⟨hc, hn⟩ => ?_
  rcases h with h | h
  · exact absurd (hc.symm.trans h) (by decide)
  · exact absurd h (Nat.ne_of_lt hn)

theorem mem_meterEvents {k : Nat} {y : Meter} (h : y.counting = true) (hn : y.count + 1 = 4294967295) :
    Instr.meterCountFull k ∈ meterEvents k (some y) := by
  rw [meterEvents, if_pos ⟨h, hn⟩]
  exact List.mem_singleton.mpr rfl

/-! ### The frame at MX's sums and AU's measures -/

/-- The part as stage 6 finds it: damage has struck, leads, players and highways have moved, and MX has ramped (R112). -/
def Part.ramped (p : Part) (i : FrameInput) : Part :=
  let p1 := ((i.upsets.foldl Part.strike p).takeFrames.leadFrame.cueFrame).stage2 i.mics
  { p1 with mx := p1.mx.stage3 }.stage4.stage5

theorem mixedFrame_eq (p : Part) (i : FrameInput) :
    p.mixedFrame i = ((p.ramped i).stage6 i.mics).probeFrame.meterFrame i.mics := rfl

theorem ramped_keepsMeasures (p : Part) (i : FrameInput) : KeepsMeasures p (p.ramped i) := by
  let p1 := ((i.upsets.foldl Part.strike p).takeFrames.leadFrame.cueFrame).stage2 i.mics
  have hheard : KeepsMeasures (i.upsets.foldl Part.strike p) { p1 with mx := p1.mx.stage3 } := ⟨rfl, rfl, rfl⟩
  obtain ⟨hclip, hprobes, hmeters⟩ :=
    ((strikes_keepSums i.upsets p).toKeepsMeasures.trans hheard).trans (useChecks_keepsMeasures _)
  exact ⟨hclip, hprobes, hmeters⟩

/-- What a frame writes at MX's outputs and AU's measures, by the part before it, and by the part after it for what is
heard. -/
structure FrameSums (p q : Part) (mics : Vector Sample 72) : Prop where
  summed : ∀ o, o < 320 → p.probeOn o = none →
    let wide := round12 (({ part := q, mics := mics } : Sources).sum o)
    vget q.mx.outputs o 0 = toSample (limit16 wide)
      ∧ vget q.mx.clip o false = (vget p.mx.clip o false || limit16 wide != wide)
  probed : ∀ o r, o < 320 → p.probeOn o = some r →
    vget q.mx.outputs o 0 = toSample r.tone ∧ vget q.mx.clip o false = vget p.mx.clip o false
  probes : q.au.probes = p.au.probes.map fun r => r.frame (lineReceive q r.line)
  meters : q.au.meters = p.au.meters.map
    (Option.map fun y : Meter => y.frame (({ part := q, mics := mics } : Sources).metered y.source))
  fullEvents : ∀ k, k < 4 → meterEvents k (vget p.au.meters k none) ⊆ q.events

/-- The frame's work up to the highways' counts makes the sums, and work beside them that follows leaves them so. -/
theorem frame_sums {p q : Part} (i : FrameInput) (hworks : WorksBeside (p.mixedFrame i).highwayFrame q)
    (hkeeps : KeepsSums (p.mixedFrame i).highwayFrame q) : FrameSums p q i.mics := by
  obtain ⟨hclip, hprobes, hmeters⟩ := ramped_keepsMeasures p i
  rw [mixedFrame_eq] at hworks hkeeps
  generalize p.ramped i = m at hclip hprobes hmeters hworks hkeeps
  have hmixed : SameSources m ((m.stage6 i.mics).probeFrame.meterFrame i.mics) := ⟨fun _ => rfl, rfl, rfl⟩
  have hsources : SameSources m q := (hmixed.trans (highwayFrame_sameSources _)).trans (hworks.sameSources hkeeps)
  have hlists : q.mx.lists = m.mx.lists := hkeeps.lists
  have hprobeOn : ∀ o, m.probeOn o = p.probeOn o := fun o => by
    simp only [Part.probeOn, Part.probeOf, hprobes]
  have hout : ∀ o, o < 320 → vget q.mx.outputs o 0 = toSample (({ part := m, mics := i.mics } : Sources).output o).1
      ∧ vget q.mx.clip o false = (vget p.mx.clip o false || (({ part := m, mics := i.mics } : Sources).output o).2) :=
    fun o ho => by
      rw [hkeeps.outputs, hkeeps.clip, ← hclip]
      exact stage6_outputs m i.mics ho
  refine ⟨fun o ho hnone => ?_, fun o r ho hsome => ?_, ?_, ?_, fun k hk e he => ?_⟩
  · have hsum : ({ part := m, mics := i.mics } : Sources).output o
        = (let r := round12 (({ part := q, mics := i.mics } : Sources).sum o); (limit16 r, limit16 r != r)) := by
      simp only [Sources.output, hprobeOn, hnone, hsources.sum i.mics hlists]
    have houtput := hout o ho
    rw [hsum] at houtput
    exact houtput
  · have htone : ({ part := m, mics := i.mics } : Sources).output o = (r.tone, false) := by
      simp only [Sources.output, hprobeOn, hsome]
    have houtput := hout o ho
    rw [htone, Bool.or_false] at houtput
    exact houtput
  · rw [hkeeps.probes, ← hprobes]
    exact List.map_congr_left fun r _ => congrArg r.frame (hsources.receive r.line).symm
  · rw [hkeeps.meters, ← hmeters]
    refine congrArg (fun f => m.au.meters.map (Option.map f)) (funext fun y => ?_)
    exact congrArg y.frame (hsources.metered i.mics y.source).symm
  · rw [← hmeters] at he
    refine hworks.events (List.mem_append_left _ (List.mem_append_right _ ?_))
    exact List.mem_flatMap.mpr ⟨k, List.mem_range.mpr hk, he⟩

/-! ### The frame as the machine takes it -/

/-- A frame before which nothing waits leaves CC and MX as its work on the blocks makes them (R112, R207). -/
theorem frame_leaves_cc_mx {s t : State} {i : FrameInput} (h : s.part.events = [])
    (hexec : exec (.referenceFrame i) s = .next t) : t.part.cc = (s.part.frame i).cc ∧ t.part.mx = (s.part.frame i).mx := by
  have ht : (s.frame i).countStart = t := Host.Outcome.next.inj hexec
  have hleaves := finish_leaves { s with part := s.part.frame i }
  rw [State.frame, settle_idle h] at ht
  rw [← ht, countStart_part]
  exact ⟨leaves_cc hleaves, leaves_mx hleaves⟩

/-- From the highways' counts to the end of the frame no sum and no measure is touched. -/
theorem frame_after_highways {s : State} (hidle : s.part.events = []) (hdigest : s.part.cc.digest = none) (i : FrameInput) :
    ∃ t, exec (.referenceFrame i) s = .next t ∧ WorksBeside (s.part.mixedFrame i).highwayFrame t.part
      ∧ KeepsSums (s.part.mixedFrame i).highwayFrame t.part := by
  obtain ⟨t, hexec, hports, hcue, hau, hevents⟩ := frame_leaves hidle i
  obtain ⟨hcc, hmx⟩ := frame_leaves_cc_mx hidle hexec
  have hmixed : (s.part.mixedFrame i).highwayFrame.cc.digest = none :=
    (mixedFrame_worksBeside s.part i).digest.trans
      ((worksBeside_foldl strike_worksBeside i.upsets s.part).digest.trans hdigest)
  have hworks : WorksBeside (s.part.frame i) t.part :=
    ⟨hports, hcue, congrArg AU.highways hau, congrArg CC.digest hcc, hevents ▸ List.Subset.refl _⟩
  have hkeeps : KeepsSums (s.part.frame i) t.part :=
    ⟨⟨congrArg MX.clip hmx, congrArg AU.probes hau, congrArg AU.meters hau⟩,
      fun n => by rw [Part.line, Part.line, hcc], congrArg MX.lists hmx, congrArg MX.talkers hmx, congrArg MX.outputs hmx⟩
  exact ⟨t, hexec, (lateFrame_worksBeside hmixed i).trans hworks, (lateFrame_keepsSums hmixed i).trans hkeeps⟩

/-- Settles O60, from what a frame writes at each output, probe and meter. -/
theorem frameSumsOutputs : Obligations.FrameSumsOutputs := by
  intro i s hidle hdigest
  obtain ⟨t, hexec, hworks, hkeeps⟩ := frame_after_highways hidle hdigest i
  have hsums := frame_sums i hworks hkeeps
  refine ⟨t, hexec, fun o ho hfree => ?_, fun r hr hline => ?_, fun g pos _ => rfl, ?_, fun k hk y hy => ?_⟩
  · obtain ⟨houtput, hclip⟩ := hsums.summed o ho (probeOn_eq_none hfree)
    exact ⟨houtput, hclip.trans (congrArg _ (limit16_ne_self _))⟩
  · obtain ⟨houtput, hclip⟩ := hsums.probed (96 + r.line) r (by omega) ((probeOn_send s.part hline).trans hr)
    exact ⟨houtput.trans (congrArg toSample (tone_eq r)), hclip⟩
  · rw [hsums.probes]
    exact List.map_congr_left fun r _ => probeFrame_eq r _
  · have hmeter : vget t.part.au.meters k none
        = some (y.frame (({ part := t.part, mics := i.mics } : Sources).metered y.source)) := by
      rw [hsums.meters, vget_map_of_lt _ _ hk none, hy]; rfl
    refine ⟨fun hcounting hroom => ⟨?_, fun hfull => ?_⟩, fun hstill => ?_⟩
    · rw [hmeter, meterFrame_counting _ hcounting hroom]
    · exact hsums.fullEvents k hk (hy ▸ mem_meterEvents hcounting hfull)
    · rw [hmeter, meterFrame_still _ hstill]

end Sys2Proof.Machine
end

section
/-! Proofs of the statements about the cue players: loading (R133 to R136), starting, stopping, configuring and reading (R137 to
R140), and the block boundary with the advance that it finishes (R131, R132). -/

namespace Sys2Proof.Machine

open Sys2Proof

/-! ### A command as its owner answers it -/

/-- A taken command leaves the part and sends the reply of what its body came to. -/
theorem commandRun_answered {c : Instr} {s : State} {tag : Nat} {cmd : Cmd} {body : Part → Answered} {a : Answered}
    (hexec : exec c s = .next (commandRun c body s)) (hc : c.host? = some (tag, cmd)) (ht : s.takes c = true)
    (ha : body (s.part.took c) = a) :
    ∃ t, exec c s = .next t ∧ Replied t tag cmd a.result a.info ∧ Leaves s t a.part := by
  obtain ⟨hleaves, hreply⟩ := commandRun_takes hc ht body
  subst ha
  exact ⟨_, hexec, hreply, hleaves⟩

/-- A taken command that its body refuses is answered so. -/
theorem commandRun_refused {c : Instr} {s : State} {tag : Nat} {cmd : Cmd} {body : Part → Answered} {r : Result}
    (hexec : exec c s = .next (commandRun c body s)) (hc : c.host? = some (tag, cmd)) (ht : s.takes c = true)
    (ha : body (s.part.took c) = (s.part.took c).refuse r) : Answers c s tag cmd r .none := by
  obtain ⟨t, hnext, hreply, hleaves⟩ := commandRun_answered hexec hc ht ha
  exact ⟨t, hnext, hleaves, hreply⟩

/-! ### A cause as CP hears it (R204) -/

theorem setCause_conds (p : Part) (n : Nat) (b : Bool) :
    (p.setCause n b).conds = vset p.conds n ((vget p.conds n {}).hear b) := by
  unfold Part.setCause Cond.hear
  cases b with
  | false => simp
  | true => cases hc : (vget p.conds n {}).cause <;> cases hl : (vget p.conds n {}).latch <;> simp [hc, hl]

/-- A cause that becomes present while the latch is clear is told. -/
theorem setCause_outbox_new {p : Part} {n : Nat} (hcause : (vget p.conds n {}).cause = false)
    (hlatch : (vget p.conds n {}).latch = false) : (p.setCause n true).outbox = p.outbox ++ [.condition n] := by
  simp [Part.setCause, hcause, hlatch]

theorem leaves_setCause {s t : State} {p : Part} {n : Nat} {b : Bool} :
    Leaves s t (p.setCause n b) ↔ Leaves s t { p with conds := vset p.conds n ((vget p.conds n {}).hear b) } := by
  rw [setCause_keeps, setCause_conds]
  exact Iff.rfl

/-- CUE hands over the cause of the player it has just written (R132). -/
theorem judgeUnderrun_setPlayer (p : Part) {k : Nat} (hk : k < 8) (x : Player) :
    (p.setPlayer k x).judgeUnderrun k = (p.setPlayer k x).setCause (9 + k) (x.playing && x.underrun) := by
  have hx := player_setPlayer_same p hk x
  unfold Part.player at hx
  rw [Part.judgeUnderrun, hx]
  rfl

theorem leaves_judged {s t : State} {p : Part} {k : Nat} (hk : k < 8) {x : Player} :
    Leaves s t ((p.setPlayer k x).judgeUnderrun k) ↔ Leaves s t { p.setPlayer k x with
      conds := vset p.conds (9 + k) ((vget p.conds (9 + k) {}).hear (x.playing && x.underrun)) } := by
  rw [judgeUnderrun_setPlayer p hk, leaves_setCause]
  exact Iff.rfl

/-! ### What a load writes (R133 to R135) -/

theorem firstBlock_eq {q : Player} {addressing value first : Nat} (hv : value < 64)
    (h : (addressing = 0 ∧ first = value) ∨ (addressing = 1 ∧ 1 ≤ value ∧ first = (q.block + value) % 64)) :
    q.firstBlock addressing value = some first := by
  rcases h with ⟨rfl, rfl⟩ | ⟨rfl, hpos, rfl⟩
  · exact if_pos hv
  · exact if_pos ⟨hpos, hv⟩

theorem firstBlock_eq_none {q : Player} {addressing value : Nat} (h : 64 ≤ value ∨ (addressing = 1 ∧ value = 0)) :
    q.firstBlock addressing value = none := by
  unfold Player.firstBlock
  split
  · exact if_neg (by omega)
  · exact if_neg (by omega)
  · rfl

/-- Block `j` of a load from block `first` lies within the write window of a player (R134). -/
def Player.Inside (q : Player) (first j : Nat) : Prop :=
  1 ≤ ((first + j) % 64 + 64 - q.block) % 64 ∧ ((first + j) % 64 + 64 - q.block) % 64 ≤ q.window

theorem admits_iff {q : Player} {first j : Nat} : q.admits ((first + j) % 64) = true ↔ q.Inside first j :=
  decide_eq_true_iff

theorem all_admits_iff {q : Player} {first count : Nat} :
    (loadBlocks first count).all q.admits = true ↔ ∀ j, j < count → q.Inside first j := by
  simp only [loadBlocks, List.all_map, List.all_eq_true, List.mem_range, Function.comp_apply, admits_iff]

section Load

variable (q : Player) (first : Nat) (samples : List Sample)

/-- The last block of a load is written on the load of those before it. -/
theorem load_succ (count : Nat) :
    q.load first (count + 1) samples
      = (q.load first count samples).writeBlock ((first + count) % 64) (blockSamples samples count) := by
  simp only [Player.load, List.range_succ, List.foldl_append, List.foldl_cons, List.foldl_nil]

theorem load_keeps (count : Nat) :
    q.load first count samples
      = { q with ring := (q.load first count samples).ring, valid := (q.load first count samples).valid } := by
  induction count with
  | zero => rfl
  | succ count ih => rw [load_succ, ih]; rfl

/-- A load of no more blocks than the ring has leaves each of its blocks written and valid. -/
theorem load_written {count : Nat} (hcount : count ≤ 64) {j : Nat} (hj : j < count) :
    vget (q.load first count samples).ring ((first + j) % 64) (Vector.replicate 32 0) = blockSamples samples j
      ∧ vget (q.load first count samples).valid ((first + j) % 64) false = true := by
  induction count with
  | zero => omega
  | succ count ih =>
    rw [load_succ]
    by_cases hlast : j = count
    · subst hlast
      exact ⟨vget_vset_same _ (by omega) _ _, vget_vset_same _ (by omega) _ _⟩
    · have hne : (first + count) % 64 ≠ (first + j) % 64 := by omega
      obtain ⟨hring, hvalid⟩ := ih (by omega) (by omega)
      exact ⟨(vget_vset_ne _ hne _ _).trans hring, (vget_vset_ne _ hne _ _).trans hvalid⟩

/-- A load leaves every other block as it was. -/
theorem load_beside {count b : Nat} (hb : ∀ j, j < count → b ≠ (first + j) % 64) :
    vget (q.load first count samples).ring b (Vector.replicate 32 0) = vget q.ring b (Vector.replicate 32 0)
      ∧ vget (q.load first count samples).valid b false = vget q.valid b false := by
  induction count with
  | zero => exact ⟨rfl, rfl⟩
  | succ count ih =>
    have hne := (hb count (Nat.lt_succ_self _)).symm
    obtain ⟨hring, hvalid⟩ := ih fun j hj => hb j (Nat.lt_succ_of_lt hj)
    rw [load_succ]
    exact ⟨(vget_vset_ne _ hne _ _).trans hring, (vget_vset_ne _ hne _ _).trans hvalid⟩

end Load

theorem vget_blockSamples (samples : List Sample) (j : Nat) {i : Nat} (hi : i < 32) :
    vget (blockSamples samples j) i 0 = samples.getD (32 * j + i) 0 := by
  simp [vget_of_lt _ hi, blockSamples]

/-! ### CUE_LOAD -/

theorem cueLoadBody_badValue {p : Part} {k addressing value count : Nat} {samples : List Sample}
    (h : 8 ≤ k ∨ 2 ≤ addressing ∨ count = 0 ∨ 3 < count ∨ 64 ≤ value ∨ (addressing = 1 ∧ value = 0)) :
    cueLoadBody k addressing value count samples p = p.refuse .badValue := by
  unfold cueLoadBody
  dsimp only
  by_cases hrange : 8 ≤ k ∨ 2 ≤ addressing ∨ count = 0 ∨ 3 < count
  · rw [if_pos hrange]
  · rw [if_neg hrange, firstBlock_eq_none (by omega)]

/-- With its arguments in range a load is a matter of the player's state and its window (R133, R134). -/
theorem cueLoadBody_eq {p : Part} {k addressing value count first : Nat} (samples : List Sample) (hk : k < 8)
    (hpos : 1 ≤ count) (hcount : count ≤ 3) (hv : value < 64)
    (hfirst : (addressing = 0 ∧ first = value)
      ∨ (addressing = 1 ∧ 1 ≤ value ∧ first = (((p.finishAdvance k).player k).block + value) % 64)) :
    cueLoadBody k addressing value count samples p =
      let q := (p.finishAdvance k).player k
      if q.playing = true ∧ (loadBlocks first count).all q.admits = false then
        { part := p.finishAdvance k, result := .window, info := .pointer q.block q.sample }
      else
        { part := (p.finishAdvance k).setPlayer k (q.load first count samples), result := .ok,
          info := .loaded first q.block q.sample } := by
  have hrange : ¬(8 ≤ k ∨ 2 ≤ addressing ∨ count = 0 ∨ 3 < count) := by omega
  unfold cueLoadBody
  dsimp only
  rw [if_neg hrange, firstBlock_eq hv hfirst]

/-- The player that was written is the one the event leaves. -/
theorem leaves_player {s t : State} {p : Part} {k : Nat} (hk : k < 8) {x : Player} (h : Leaves s t (p.setPlayer k x)) :
    t.part.player k = x := by
  rw [Part.player, leaves_cue h]
  exact player_setPlayer_same p hk x

/-- Settles O44: bad arguments first, then the window. -/
theorem cueLoadWritesBlocks : Obligations.CueLoadWritesBlocks := by
  intro tag k addressing value count first samples s c p q ht
  refine ⟨fun hbad => commandRun_refused rfl rfl ht (cueLoadBody_badValue hbad), fun hk hpos hcount hv hfirst => ?_⟩
  have body := cueLoadBody_eq (p := s.part.took c) samples hk hpos hcount hv hfirst
  refine ⟨fun hplaying hout => ?_, fun hin => ?_⟩
  · have hadmits : (loadBlocks first count).all q.admits = false := by
      rw [← Bool.not_eq_true, all_admits_iff]
      obtain ⟨j, hj, hoff⟩ := hout
      exact fun h => hoff (h j hj)
    exact commandRun_answered rfl rfl ht (body.trans (if_pos ⟨hplaying, hadmits⟩))
  · have hadmits : ¬(q.playing = true ∧ (loadBlocks first count).all q.admits = false) :=
      fun ⟨hplaying, hoff⟩ => by rw [all_admits_iff.mpr (hin hplaying)] at hoff; cases hoff
    obtain ⟨t, hexec, hreply, hleaves⟩ := commandRun_answered rfl rfl ht (body.trans (if_neg hadmits))
    have hplayer : t.part.player k = q.load first count samples := leaves_player hk hleaves
    refine ⟨t, hexec, hreply, ?_, fun j i hj hi => ?_, fun j hj => ?_, fun b _ hb => ?_⟩
    all_goals rw [hplayer]
    · rw [← load_keeps]; exact hleaves
    · rw [(load_written q first samples (by omega) hj).1, vget_blockSamples samples j hi]
    · exact (load_written q first samples (by omega) hj).2
    · exact load_beside q first samples hb

/-! ### The block boundary (R131, R132) -/

/-- The valid marks once the pointer leaves its block: a SINGLE player's block is spent. -/
def Player.validLeft (q : Player) : Vector Bool 64 := if q.continuous then q.valid else vset q.valid q.block false

theorem cross_eq (q : Player) :
    q.cross = { q with
      valid := q.validLeft, block := (q.block + 1) % 64, sample := 0,
      underrun := !(vget q.validLeft ((q.block + 1) % 64) false) } := by
  simp only [Player.cross, Player.enter, Player.validLeft]
  split <;> rfl

theorem validLeft_spent {q : Player} (h : q.continuous = false) (hb : q.block < 64) :
    vget q.validLeft q.block true = false := by
  rw [Player.validLeft, h]
  exact vget_vset_same _ hb _ _

theorem atEnd_iff {q : Player} : q.atEnd = true ↔ q.playing = true ∧ q.sample = 31 := by simp [Player.atEnd]

theorem cueBlockBoundaryBody_crosses {p : Part} {k : Nat} (hp : (p.player k).playing = true)
    (hs : (p.player k).sample = 31) :
    cueBlockBoundaryBody k p = (p.setPlayer k (p.player k).cross).judgeUnderrun k :=
  if_pos (atEnd_iff.mpr ⟨hp, hs⟩)

theorem cueBlockBoundaryBody_stays {p : Part} {k : Nat} (h : (p.player k).playing = false ∨ (p.player k).sample ≠ 31) :
    cueBlockBoundaryBody k p = p :=
  if_neg fun he => by
    obtain ⟨hp, hs⟩ := atEnd_iff.mp he
    exact h.elim (fun hstopped => by rw [hp] at hstopped; cases hstopped) (· hs)

/-- A boundary that waits is crossed as its own event crosses it, and what it tells goes ahead (log 20). -/
theorem finishAdvance_waiting {p : Part} {k : Nat} (h : .cueBlockBoundary k ∈ p.events) :
    let b := cueBlockBoundaryBody k (p.took (.cueBlockBoundary k))
    p.finishAdvance k = { b with early := b.early ++ b.outbox, outbox := [] } :=
  if_pos h

/-- The advance once finished: the player has crossed its boundary and the event waits no more. -/
theorem finishAdvance_crosses {p : Part} {k : Nat} (hk : k < 8) (h : .cueBlockBoundary k ∈ p.events)
    (hp : (p.player k).playing = true) (hs : (p.player k).sample = 31) :
    (p.finishAdvance k).player k = (p.player k).cross
      ∧ (p.finishAdvance k).events = p.events.erase (.cueBlockBoundary k) := by
  rw [finishAdvance_waiting h, cueBlockBoundaryBody_crosses (by exact hp) (by exact hs), judgeUnderrun_setPlayer _ hk]
  refine ⟨?_, by simp only [setCause_events]; rfl⟩
  simp only [Part.player, setCause_cue]
  exact player_setPlayer_same p hk _

/-! ### CUE_START, CUE_STOP and CUE_CONFIG (R137 to R139) -/

theorem continuousOf_eq {mode : Nat} (h : mode < 2) : continuousOf mode = some (mode == 1) := by
  match mode, h with
  | 0, _ => rfl
  | 1, _ => rfl

theorem continuousOf_eq_none {mode : Nat} (h : 2 ≤ mode) : continuousOf mode = none := by
  match mode, h with
  | _ + 2, _ => rfl

theorem cueStartBody_badValue {p : Part} {k mode block : Nat} (h : 8 ≤ k ∨ 2 ≤ mode ∨ 64 ≤ block) :
    cueStartBody k mode block p = p.refuse .badValue := by
  unfold cueStartBody
  by_cases hmode : 2 ≤ mode
  · rw [continuousOf_eq_none hmode]
  · rw [continuousOf_eq (by omega)]
    exact if_pos (by omega)

theorem cueStartBody_eq {p : Part} {k mode block : Nat} (hk : k < 8) (hmode : mode < 2) (hblock : block < 64) :
    cueStartBody k mode block p =
      let q := (p.finishAdvance k).player k
      (((p.finishAdvance k).setPlayer k { q with
        continuous := mode == 1, playing := true, block := block, sample := 0,
        underrun := !(vget q.valid block false) }).judgeUnderrun k).accept := by
  unfold cueStartBody
  rw [continuousOf_eq hmode]
  exact if_neg (by omega)

theorem cueStopBody_eq {p : Part} {k : Nat} (hk : k < 8) :
    cueStopBody k p = (((p.finishAdvance k).setPlayer k
      { (p.finishAdvance k).player k with playing := false, underrun := false }).judgeUnderrun k).accept :=
  if_neg (Nat.not_le.mpr hk)

theorem cueConfigBody_eq {p : Part} {k : Nat} (hk : k < 8) (window : Nat) :
    cueConfigBody k window p =
      { part := p.setPlayer k { p.player k with window := max 1 (min window 63) }, result := .ok,
        info := .window (max 1 (min window 63)) } :=
  if_neg (Nat.not_le.mpr hk)

theorem readCueBody_eq {p : Part} {k : Nat} (hk : k < 8) :
    readCueBody k p =
      { part := p.finishAdvance k, result := .ok, info := .cue ((p.finishAdvance k).player k).report } :=
  if_neg (Nat.not_le.mpr hk)

/-- A command that ends by judging the player it has written: the reply, the player and the cause. -/
theorem commandRun_judged {c : Instr} {s : State} {tag k : Nat} {cmd : Cmd} {body : Part → Answered} {p : Part} {x : Player}
    (hexec : exec c s = .next (commandRun c body s)) (hc : c.host? = some (tag, cmd)) (ht : s.takes c = true) (hk : k < 8)
    (ha : body (s.part.took c) = ((p.setPlayer k x).judgeUnderrun k).accept) :
    ∃ t, exec c s = .next t ∧ Replied t tag cmd .ok .none ∧ Leaves s t { p.setPlayer k x with
      conds := vset p.conds (9 + k) ((vget p.conds (9 + k) {}).hear (x.playing && x.underrun)) } := by
  obtain ⟨t, hnext, hreply, hleaves⟩ := commandRun_answered hexec hc ht ha
  exact ⟨t, hnext, hreply, (leaves_judged hk).mp hleaves⟩

/-! ### The boundary's own event -/

/-- The event crosses the boundary, the cause follows the underrun, and a new one is told (R131, R132, R204). -/
theorem cueBlockBoundary_crosses {k : Nat} {s : State} (hk : k < 8) {p : Part} (hp : s.part.took (.cueBlockBoundary k) = p)
    (hplaying : (p.player k).playing = true) (hsample : (p.player k).sample = 31) :
    ∃ t, exec (.cueBlockBoundary k) s = .next t
      ∧ Leaves s t { p.setPlayer k (p.player k).cross with
          conds := vset p.conds (9 + k) ((vget p.conds (9 + k) {}).hear (p.player k).cross.underrun) }
      ∧ (s.roomy → (p.player k).cross.underrun = true → (vget p.conds (9 + k) {}).cause = false →
          (vget p.conds (9 + k) {}).latch = false → Told t (.condition (9 + k))) := by
  have hcause : ((p.player k).cross.playing && (p.player k).cross.underrun) = (p.player k).cross.underrun := by
    rw [cross_eq]
    exact (congrArg (· && _) hplaying).trans (Bool.true_and _)
  have body := cueBlockBoundaryBody_crosses hplaying hsample
  have hleaves := eventRun_leaves (.cueBlockBoundary k) (cueBlockBoundaryBody k) s
  rw [hp, body, leaves_judged hk, hcause] at hleaves
  refine ⟨_, rfl, hleaves, fun ⟨hearly, hout, hroom⟩ hunder hclear hlatch => ?_⟩
  rw [judgeUnderrun_setPlayer p hk, hcause, hunder] at body
  have htells : (cueBlockBoundaryBody k p).outbox = [.condition (9 + k)] := by
    have hempty : (p.setPlayer k (p.player k).cross).outbox = [] := by rw [← hp]; exact hout
    rw [body, setCause_outbox_new (by exact hclear) (by exact hlatch), hempty, List.nil_append]
  have hbefore : (cueBlockBoundaryBody k p).early = [] := by
    rw [body, setCause_early, ← hp]
    exact hearly
  refine eventRun_told _ _ s ?_ ?_ <;> rw [hp, htells]
  · exact List.mem_singleton_self _
  · rw [hbefore]
    simp only [List.length_nil, List.length_singleton]
    omega

/-- Settles O45, one command after the other, then the boundary. -/
theorem cuePlayersRun : Obligations.CuePlayersRun := by
  refine ⟨?start, ?stop, ?config, ?read, ?advance, ?boundary⟩
  case start =>
    intro tag k mode block s c p q under ht
    exact ⟨fun hbad => commandRun_refused rfl rfl ht (cueStartBody_badValue hbad),
      fun hk hmode hblock => commandRun_judged rfl rfl ht hk (cueStartBody_eq hk hmode hblock)⟩
  case stop =>
    intro tag k s c p ht
    exact ⟨fun hk => commandRun_refused rfl rfl ht (if_pos hk),
      fun hk => commandRun_judged rfl rfl ht hk (cueStopBody_eq hk)⟩
  case config =>
    intro tag k window s c p w ht
    exact ⟨fun hk => commandRun_refused rfl rfl ht (if_pos hk),
      fun hk => commandRun_answered rfl rfl ht (cueConfigBody_eq hk window)⟩
  case read =>
    intro tag k s p q ht
    refine ⟨fun hk => commandRun_refused rfl rfl ht (if_pos hk), fun hk => ?_⟩
    obtain ⟨t, hexec, hreply, hleaves⟩ := commandRun_answered rfl rfl ht (readCueBody_eq hk)
    exact ⟨t, hexec, hleaves, hreply⟩
  case advance =>
    intro k s hk q o
    refine ⟨finishAdvance_idle, fun hwaits hplaying hsample => ?_⟩
    obtain ⟨hplayer, hevents⟩ := finishAdvance_crosses hk hwaits hplaying hsample
    have hcrossed : q = _ := hplayer.trans (cross_eq o)
    rw [hcrossed]
    exact ⟨rfl, rfl, hplaying, validLeft_spent, hevents⟩
  case boundary =>
    intro k s hk c p q valid under
    refine ⟨fun hplaying hsample => ?_, fun hstays => ?_⟩
    · have hcross := cueBlockBoundary_crosses hk (p := p) rfl hplaying hsample
      rw [cross_eq] at hcross
      exact hcross
    · have hleaves := eventRun_leaves c (cueBlockBoundaryBody k) s
      rw [cueBlockBoundaryBody_stays hstays] at hleaves
      exact ⟨_, rfl, hleaves⟩

end Sys2Proof.Machine
end

section
/-! Proofs of the statement about the level meters (R189, R190) and the Fault Record: its offers (R194), its reading and its
clearing (R195). -/

namespace Sys2Proof.Machine

open Sys2Proof

/-! ### Level meters (R189, R190) -/

theorem meterOpenBody_busy {p : Part} {m source : Nat} (hm : m < 4) (hsource : source < 304)
    (hopen : (vget p.au.meters m none).isSome = true) : meterOpenBody m source p = p.refuse .busy := by
  rw [meterOpenBody, if_neg (by omega), if_pos hopen]

theorem meterOpenBody_idle {p : Part} {m source : Nat} (hm : m < 4) (hsource : source < 304)
    (hidle : vget p.au.meters m none = none) :
    meterOpenBody m source p = Part.accept { p with au := { p.au with
      meters := vset p.au.meters m (some { source := source, count := 0, sum := 0, counting := true }) } } := by
  rw [meterOpenBody, if_neg (by omega), hidle]
  rfl

theorem meterCloseBody_idle {p : Part} {m : Nat} (hm : m < 4) (hidle : vget p.au.meters m none = none) :
    meterCloseBody m p = p.refuse .wrongState := by
  rw [meterCloseBody, if_neg (Nat.not_le.mpr hm), hidle]

/-- Only the part's own meters can be open. -/
theorem lt_of_openMeter {p : Part} {m : Nat} {x : Meter} (hx : vget p.au.meters m none = some x) : m < 4 := by
  refine Nat.lt_of_not_le fun hm => ?_
  rw [vget_of_ge _ hm] at hx
  cases hx

/-- A close reports the mean, which is 0 for a meter that has counted no frame (R190). -/
theorem meterCloseBody_open {p : Part} {m : Nat} {x : Meter} (hx : vget p.au.meters m none = some x) :
    meterCloseBody m p =
      { part := { p with au := { p.au with meters := vset p.au.meters m none } },
        result := if 1600 ≤ x.count then .ok else .unsettled,
        info := .level (if x.count = 0 then 0 else x.sum / x.count) x.count } := by
  have hmean : (if x.count = 0 then 0 else x.sum / x.count) = x.sum / x.count := by
    split
    · next h => rw [h, Nat.div_zero]
    · rfl
  rw [meterCloseBody, if_neg (Nat.not_le.mpr (lt_of_openMeter hx)), hx, hmean]

theorem meterFullBody_full {p : Part} {m : Nat} {x : Meter} (hx : vget p.au.meters m none = some x)
    (hfull : x.count = 4294967295) :
    meterFullBody m p =
      { p with au := { p.au with meters := vset p.au.meters m (some { x with counting := false }) } } := by
  rw [meterFullBody, hx]
  exact if_pos hfull

/-- The event without its cause changes nothing (log 8). -/
theorem meterFullBody_room {p : Part} {m : Nat} (h : ∀ x, vget p.au.meters m none = some x → x.count ≠ 4294967295) :
    meterFullBody m p = p := by
  cases hx : vget p.au.meters m none with
  | none => rw [meterFullBody, hx]
  | some x =>
    rw [meterFullBody, hx]
    exact if_neg (h x hx)

/-! ### Offers to the Fault Record (R194) -/

theorem entersRecord_iff {f : Option FaultRec} {rank : Rank} :
    entersRecord f rank = true ↔ f = none ∨ ∃ r, f = some r ∧ r.rank = .low ∧ rank = .high := by
  cases f <;> simp [entersRecord]

/-- The fault as an offer brings it. -/
def FaultRec.ofOffer (o : Offer) (time : Nat) : FaultRec :=
  { rank := o.rank, store := o.store, index := o.index, syndrome := o.syndrome, time := time, foundBy := o.foundBy }

/-- What an offer leaves of the part, apart from the notice of a HIGH one. -/
def Part.offered (p : Part) (o : Offer) : Part :=
  { p with au := { p.au with
      fault := if entersRecord p.au.fault o.rank then some (FaultRec.ofOffer o p.tu.floorTime) else p.au.fault,
      mixCorrected := if o.rank = .low ∧ o.store = .mix then min 65535 (p.au.mixCorrected + 1) else p.au.mixCorrected,
      lineCorrected := if o.rank = .low ∧ o.store = .line then min 65535 (p.au.lineCorrected + 1)
        else p.au.lineCorrected } }

/-- A LOW offer is silent and a HIGH one sends FAULT with the kept flag. -/
theorem faultOfferBody_eq (o : Offer) (p : Part) :
    faultOfferBody o p = if o.rank = .low then p.offered o else (p.offered o).note
      (.fault o.store o.index o.syndrome p.tu.floorTime o.foundBy (entersRecord p.au.fault o.rank)) := by
  obtain ⟨rank, store, index, syndrome, foundBy⟩ := o
  cases rank with
  | low => cases store <;> rfl
  | high => rfl

theorem faultOffer_leaves (o : Offer) (s : State) :
    Leaves s (eventRun (.faultOffer o) (faultOfferBody o) s) ((s.part.took (.faultOffer o)).offered o) := by
  have hleaves := eventRun_leaves (.faultOffer o) (faultOfferBody o) s
  rw [faultOfferBody_eq] at hleaves
  split at hleaves
  · exact hleaves
  · exact leaves_note.mp hleaves

theorem faultOffer_told {o : Offer} {s : State} (hroomy : s.roomy) (hhigh : o.rank = .high) :
    Told (eventRun (.faultOffer o) (faultOfferBody o) s)
      (.fault o.store o.index o.syndrome s.part.tu.floorTime o.foundBy (entersRecord s.part.au.fault o.rank)) := by
  obtain ⟨hearly, hout, hroom⟩ := hroomy
  have body := (faultOfferBody_eq o (s.part.took (.faultOffer o))).trans (if_neg (by rw [hhigh]; decide))
  have htells : (faultOfferBody o (s.part.took (.faultOffer o))).outbox =
      [.fault o.store o.index o.syndrome s.part.tu.floorTime o.foundBy (entersRecord s.part.au.fault o.rank)] := by
    rw [body, note_outbox, show ((s.part.took (.faultOffer o)).offered o).outbox = [] from hout]
    rfl
  have hbefore : (faultOfferBody o (s.part.took (.faultOffer o))).early = [] := by
    rw [body]
    exact hearly
  refine eventRun_told _ _ s ?_ ?_ <;> rw [htells]
  · exact List.mem_singleton_self _
  · rw [hbefore]
    simp only [List.length_nil, List.length_singleton]
    omega

/-! ### The report of the Fault Record (R195) -/

theorem owner?_eq_some {p : Part} {word o : Nat} (h : p.mx.owner? word = some o) :
    o < 320 ∧ ∃ e ∈ p.mixList o, e.index = word := by
  have hany := List.find?_some h
  obtain ⟨e, he, hword⟩ := List.any_eq_true.mp hany
  exact ⟨List.mem_range.mp (List.mem_of_find?_eq_some h), e, he, beq_iff_eq.mp hword⟩

theorem owner?_eq_none {p : Part} {word : Nat} (h : p.mx.owner? word = none) {o : Nat} (ho : o < 320) {e : Entry}
    (he : e ∈ p.mixList o) : e.index ≠ word := fun hword =>
  List.find?_eq_none.mp h o (List.mem_range.mpr ho) (List.any_eq_true.mpr ⟨e, he, beq_iff_eq.mpr hword⟩)

theorem faultReport_output_mix {p : Part} {f : FaultRec} (h : p.au.fault = some f) (hstore : f.store = .mix) :
    p.faultReport.output = p.mx.owner? f.index := by
  obtain ⟨rank, store, index, syndrome, time, foundBy⟩ := f
  subst hstore
  simp only [Part.faultReport, h]

theorem faultReport_output_line {p : Part} {f : FaultRec} (h : p.au.fault = some f) (hstore : f.store = .line) :
    p.faultReport.output = none := by
  obtain ⟨rank, store, index, syndrome, time, foundBy⟩ := f
  subst hstore
  simp only [Part.faultReport, h]

/-- Settles O50: the meters' two commands and their event, then the record's offers, reading and clearing. -/
theorem metersAndFaultRecord : Obligations.MetersAndFaultRecord := by
  refine ⟨⟨?opens, ?closes, ?full⟩, ?offers, ?reads, ?clears⟩
  case opens =>
    intro tag m source s c p ht
    exact ⟨fun hbad => commandRun_refused rfl rfl ht (if_pos hbad),
      fun hm hsource hopen => commandRun_refused rfl rfl ht (meterOpenBody_busy hm hsource hopen),
      fun hm hsource hidle => commandRun_answered rfl rfl ht (meterOpenBody_idle hm hsource hidle)⟩
  case closes =>
    intro tag m s c p ht
    exact ⟨fun hm => commandRun_refused rfl rfl ht (if_pos hm),
      fun hm hidle => commandRun_refused rfl rfl ht (meterCloseBody_idle hm hidle),
      fun x hx => commandRun_answered rfl rfl ht (meterCloseBody_open hx)⟩
  case full =>
    intro m s c p
    have hleaves := eventRun_leaves c (meterFullBody m) s
    refine ⟨fun x hx hfull => ⟨_, rfl, ?_⟩, fun hroom => ⟨_, rfl, ?_⟩⟩
    · exact meterFullBody_full hx hfull ▸ hleaves
    · exact meterFullBody_room hroom ▸ hleaves
  case offers =>
    intro o s c p a kept new
    have hleaves := faultOffer_leaves o s
    have hfault := congrArg AU.fault (leaves_au hleaves)
    refine ⟨_, rfl, fun hkept => ?_, fun hnot => ?_, ?_, fun hroomy hhigh => ?_⟩
    · exact hfault.trans (if_pos (entersRecord_iff.mpr hkept))
    · exact hfault.trans (if_neg (mt entersRecord_iff.mp hnot))
    · rw [hfault]
      exact hleaves
    · exact ⟨_, entersRecord_iff, faultOffer_told hroomy hhigh⟩
  case reads =>
    intro tag s ht p
    obtain ⟨t, hexec, hreply, hleaves⟩ := commandRun_answered (body := readFaultBody) rfl rfl ht rfl
    refine ⟨t, p.faultReport, hexec, hreply, hleaves, rfl, rfl, rfl, fun f hf => ⟨faultReport_output_line hf, ?_⟩⟩
    intro hmix
    rw [faultReport_output_mix hf hmix]
    exact ⟨fun _ => owner?_eq_some, fun hnone _ ho _ he => owner?_eq_none hnone ho he⟩
  case clears =>
    intro tag s ht p
    exact commandRun_answered (body := clearFaultBody) rfl rfl ht rfl

end Sys2Proof.Machine
end

section
/-! Proofs of the statements about every row of the table: a step takes the front command, no row stops and none touches the
queue of commands (95_what_each_step_holds.md), and the bounds of the link hold after every step (R197, R199, R201). -/

namespace Sys2Proof.Machine

open Sys2Proof

/-! ### The bounds of the link (R197, R199, R201) -/

/-- The link's own part of `State.linkLaw`: its queues, the serial and its counts. -/
structure Link.Bounded (l : Link) : Prop where
  replies : l.replies.length ≤ 8
  notices : l.notices.length ≤ 64
  serial : l.serial < 256
  crcErrors : l.crcErrors ≤ 65535
  gaps : l.gaps ≤ 65535
  overruns : l.overruns ≤ 65535

theorem linkLaw_iff (s : State) : s.linkLaw ↔ s.link.Bounded ∧ s.part.early = [] ∧ s.part.outbox = [] := by
  constructor
  · rintro ⟨hr, hn, hs, hc, hg, ho, he, hb⟩
    exact ⟨⟨hr, hn, hs, hc, hg, ho⟩, he, hb⟩
  · rintro ⟨⟨hr, hn, hs, hc, hg, ho⟩, he, hb⟩
    exact ⟨hr, hn, hs, hc, hg, ho, he, hb⟩

/-- Links that stand still alike have the same start and the same counts. -/
theorem reported_of_still {l m : Link} (h : l.still = m.still) :
    l.start = m.start ∧ l.crcErrors = m.crcErrors ∧ l.gaps = m.gaps ∧ l.overruns = m.overruns := by
  have hstart := congrArg Link.start h
  have hcrc := congrArg Link.crcErrors h
  have hgaps := congrArg Link.gaps h
  have hoverruns := congrArg Link.overruns h
  exact ⟨hstart, hcrc, hgaps, hoverruns⟩

/-- A link with the counts of a bounded one is bounded when its queues and its serial are. -/
theorem Link.Bounded.of_still {l m : Link} (h : l.Bounded) (hstill : m.still = l.still) (hr : m.replies.length ≤ 8)
    (hn : m.notices.length ≤ 64) (hs : m.serial < 256) : m.Bounded := by
  obtain ⟨_, hcrc, hgaps, hoverruns⟩ := reported_of_still hstill
  exact ⟨hr, hn, hs, hcrc ▸ h.crcErrors, hgaps ▸ h.gaps, hoverruns ▸ h.overruns⟩

/-- Empty queues and counts of 0, the serial at 0. -/
theorem bounded_idle {b1 b0 brk : Bool} {phase : LinkPhase} {start : StartCause} {tx : Option TxFrame} :
    ({ baud1 := b1, baud0 := b0, phase := phase, start := start, inBreak := brk, tx := tx } : Link).Bounded where
  replies := Nat.zero_le _
  notices := Nat.zero_le _
  serial := Nat.zero_lt_succ _
  crcErrors := Nat.zero_le _
  gaps := Nat.zero_le _
  overruns := Nat.zero_le _

theorem bounded_pump {l : Link} (h : l.Bounded) : l.pump.Bounded :=
  h.of_still (pump_still l) (Nat.le_trans (pump_replies_le l) h.replies) (Nat.le_trans (pump_notices_le l) h.notices)
    ((pump_serial l).symm ▸ h.serial)

theorem bounded_queueNotice {l : Link} (h : l.Bounded) (now : Nat) (n : Notice) : (l.queueNotice now n).Bounded :=
  h.of_still (queueNotice_still now l n) (Nat.le_trans (queueNotice_replies_le now l n) h.replies)
    (queueNotice_notices_le now l n h.notices) (by rw [queueNotice_serial]; exact Nat.mod_lt _ (by decide))

theorem bounded_queueAll {l : Link} (h : l.Bounded) (now : Nat) (ns : List Notice) :
    (ns.foldl (Link.queueNotice now) l).Bounded :=
  h.of_still (queueAll_still now l ns) (Nat.le_trans (queueAll_replies_le now l ns) h.replies)
    (queueAll_notices_le now l ns h.notices) (queueAll_serial_lt now l ns h.serial)

theorem bounded_answer {l : Link} (h : l.Bounded) (tag : Nat) (kind : ReplyKind) (r : Result) (i : Info) :
    (l.answer tag kind r i).Bounded :=
  h.of_still (answer_still l tag kind r i) (Nat.le_trans (answer_replies_le l tag kind r i) h.replies)
    (Nat.le_trans (answer_notices_le l tag kind r i) h.notices) ((answer_serial l tag kind r i).symm ▸ h.serial)

/-- A place is held only while fewer than 8 are (R199). -/
theorem bounded_holdPlace {l : Link} (h : l.Bounded) (hroom : l.replies.length < 8) (tag : Nat) (kind : ReplyKind) :
    (l.holdPlace tag kind).Bounded :=
  { h with replies := Nat.le_trans (Nat.le_of_eq List.length_append) hroom }

theorem bounded_replyAtOnce {l : Link} (h : l.Bounded) (hroom : l.replies.length < 8) (tag : Nat) (kind : ReplyKind)
    (r : Result) (i : Info) : (l.replyAtOnce tag kind r i).Bounded :=
  bounded_pump { h with replies := Nat.le_trans (Nat.le_of_eq List.length_append) hroom }

/-- The counts stop at 65535 (R197, R199). -/
theorem bounded_overrun {l : Link} (h : l.Bounded) : ({ l with overruns := min 65535 (l.overruns + 1) } : Link).Bounded :=
  { h with overruns := Nat.min_le_left _ _ }

theorem bounded_crcError {l : Link} (h : l.Bounded) :
    ({ l with crcErrors := min 65535 (l.crcErrors + 1) } : Link).Bounded :=
  { h with crcErrors := Nat.min_le_left _ _ }

theorem bounded_dropPartial {l : Link} (h : l.Bounded) : l.dropPartial.Bounded := by
  unfold Link.dropPartial
  split
  · exact h
  · exact { h with gaps := Nat.min_le_left _ _ }

theorem bounded_clearCounts {l : Link} (h : l.Bounded) : l.clearCounts.Bounded :=
  { h with crcErrors := Nat.zero_le _, gaps := Nat.zero_le _, overruns := Nat.zero_le _ }

theorem bounded_takeRestart {l : Link} (h : l.Bounded) : l.takeRestart.Bounded := { h with }

theorem bounded_break {l : Link} (h : l.Bounded) : l.break.Bounded :=
  { h with replies := Nat.le_trans (List.length_filter_le _ _) h.replies, notices := Nat.zero_le _ }

/-- The link right after READY and the CONDITION notices, its queues having been empty (R206, R207). -/
theorem bounded_announce {l : Link} (h : l.Bounded) (cause : StartCause) (p : Part) : (l.announce cause p).Bounded :=
  bounded_queueAll h _ _

/-! ### The end of an event, and a command -/

theorem bounded_flushOp {s : State} (h : s.link.Bounded) : s.flushOp.link.Bounded := by
  rcases flushOp_cases s with e | ⟨_, _, _, _, e⟩ | ⟨_, _, n, _, _, e⟩ <;> rw [e]
  · exact h
  · exact h
  · exact bounded_queueNotice h _ n

theorem bounded_flushOps {s : State} (h : s.link.Bounded) : s.flushOps.link.Bounded :=
  bounded_flushOp (bounded_flushOp (bounded_flushOp (bounded_flushOp h)))

/-- Queueing held results leaves the model's own lists as they are. -/
theorem flushOps_linkLaw {s : State} (h : s.linkLaw) : s.flushOps.linkLaw := by
  obtain ⟨hlink, hearly, hout⟩ := (linkLaw_iff s).mp h
  obtain ⟨_, _, he, ho, _, _⟩ := flushOps_keeps s
  exact (linkLaw_iff _).mpr ⟨bounded_flushOps hlink, he.trans hearly, ho.trans hout⟩

/-- At the end of an event the model's own lists are empty, whatever the event put there. -/
theorem finish_linkLaw {s : State} (h : s.link.Bounded) : s.finish.linkLaw :=
  flushOps_linkLaw ((linkLaw_iff _).mpr ⟨bounded_queueAll (bounded_queueAll h _ _) _ _, rfl, rfl⟩)

theorem conclude_linkLaw {s : State} (h : s.link.Bounded) (tag : Nat) (cmd : Cmd) (a : Answered) {after : Link → Link}
    (hafter : ∀ l : Link, l.Bounded → (after l).Bounded) : (s.conclude tag cmd a after).linkLaw :=
  flushOps_linkLaw ((linkLaw_iff _).mpr
    ⟨bounded_queueAll (bounded_answer (hafter _ (bounded_queueAll h _ _)) _ _ _ _) _ _, rfl, rfl⟩)

theorem eventRun_linkLaw {s : State} (h : s.linkLaw) (c : Instr) (body : Part → Part) : (eventRun c body s).linkLaw :=
  finish_linkLaw ((linkLaw_iff s).mp h).1

theorem hostRun_linkLaw {s : State} (h : s.linkLaw) (c : Instr) (body : Link → Part → Answered) {after : Link → Link}
    (hafter : ∀ l : Link, l.Bounded → (after l).Bounded) : (hostRun c body after s).linkLaw := by
  obtain ⟨hlink, hearly, hout⟩ := (linkLaw_iff s).mp h
  rcases hostRun_cases c body after s with e | ⟨l, e, hl⟩ | ⟨tag, cmd, hroom, e⟩ | ⟨tag, cmd, _, ⟨_, e⟩ | ⟨hroom, _, e⟩⟩ <;>
    rw [e]
  · exact h
  · refine (linkLaw_iff _).mpr ⟨?_, hearly, hout⟩
    rcases hl with rfl | ⟨tag, cmd, hroom, rfl⟩
    · exact bounded_overrun hlink
    · exact bounded_replyAtOnce hlink hroom _ _ _ _
  · exact (linkLaw_iff _).mpr ⟨bounded_holdPlace hlink hroom _ _, hearly, hout⟩
  · exact conclude_linkLaw hlink _ _ _ hafter
  · exact conclude_linkLaw (bounded_holdPlace hlink hroom _ _) _ _ _ hafter

theorem eventRun_pending (c : Instr) (body : Part → Part) (s : State) : (eventRun c body s).pending = s.pending :=
  (eventRun_leaves c body s).2.2.2.2

theorem conclude_pending (s : State) (tag : Nat) (cmd : Cmd) (a : Answered) (after : Link → Link) :
    (s.conclude tag cmd a after).pending = s.pending := (flushOps_keeps _).2.2.2.2.2

theorem hostRun_pending (c : Instr) (body : Link → Part → Answered) (after : Link → Link) (s : State) :
    (hostRun c body after s).pending = s.pending := by
  rcases hostRun_cases c body after s with e | ⟨l, e, _⟩ | ⟨tag, cmd, _, e⟩ | ⟨tag, cmd, _, ⟨_, e⟩ | ⟨_, _, e⟩⟩ <;> rw [e]
  · exact conclude_pending _ _ _ _ _
  · exact conclude_pending _ _ _ _ _

/-! ### What each row runs -/

/-- The row is a command, and CP's own part in it keeps the bounds of the link. -/
def RunsCommand (c : Instr) : Prop :=
  ∃ (body : Link → Part → Answered) (after : Link → Link), (∀ l : Link, l.Bounded → (after l).Bounded)
    ∧ ∀ s, exec c s = .next (hostRun c body after s) ∧ takeRow c s = hostRun c body after s

/-- Every row of the host is a command. -/
theorem host_runsCommand {c : Instr} (hc : c.host? ≠ none) : RunsCommand c := by
  cases c with
  | status => exact ⟨_, _, fun _ => bounded_clearCounts, fun _ => ⟨rfl, rfl⟩⟩
  | restart => exact ⟨_, _, fun _ => bounded_takeRestart, fun _ => ⟨rfl, rfl⟩⟩
  | defineLine | removeLine | definePosition | setDeviceGain | setTrim | defineSpeaker | defineGroup | cueRoute | setGuard
  | digest | readLine | readPosition | seize | leave | hold | ring | setPrivacy | releaseLine | speakerListen | speakerGain
  | speakerTalkPress | speakerTalkRelease | groupTalkPress | groupTalkRelease | refreshOutput | readMix | cueLoad | cueStart
  | cueStop | cueConfig | readCue | journalFetch | journalRelease | readTap | setTime | steer | schedule | cancel
  | readSchedule | probe | meterOpen | meterClose | readFault | clearFault | ackCondition =>
    exact ⟨_, id, fun _ => id, fun _ => ⟨rfl, rfl⟩⟩
  | _ => exact absurd rfl hc

/-- A waiting row is a command or an event, or it begins the restart, or it is one that never waits and is only dropped. -/
theorem takeRow_cases (c : Instr) (s : State) :
    RunsCommand c ∨ (∃ body : Part → Part, takeRow c s = eventRun c body s)
      ∨ (c = .restartBegin ∧ takeRow c s = s.restartBegin)
      ∨ takeRow c s = { s with part := { s.part with events := s.part.events.erase c } } := by
  cases hc : c.host? with
  | some _ => exact .inl (host_runsCommand (by simp [hc]))
  | none =>
    refine .inr ?_
    cases c with
    | restartBegin =>
      by_cases h : s.link.phase = .restarting
      · exact .inr (.inl ⟨rfl, if_pos h⟩)
      · exact .inr (.inr (if_neg h))
    | powerOn | linkBreak | frameReceived | frameGapTimeout | transmitFrameDone | referenceFrame | highwayFrameArrival
    | lenOutOfRange | breakEnd => exact .inr (.inr rfl)
    | digestFinish | idleRevoke | cueBlockBoundary | steeringCorrection | actionDue | probePhaseChange | probeEnd
    | meterCountFull | debouncedChange | riseEvent | fallEvent | burstEvent | outgoingBurstEnd | recallDeadlineExpiry
    | ringTimeout | detectorHoldExpiry | activityEvent | highwayWindowEnd | highwayGapLoss | lineHighwayLost | rrdyChange
    | faultOffer => exact .inl ⟨_, rfl⟩
    | lsuHighwayLoss h => exact .inl ⟨fun p => p.modPorts h Port.lose, rfl⟩
    | lsuHighwayReturn h => exact .inl ⟨fun p => p.modPorts h Port.restart, rfl⟩
    | lineHighwayRestored h => exact .inl ⟨fun p => (highwayLines h).foldl lineRestored p, rfl⟩
    | scrubMixCheck word => exact .inl ⟨fun p => checkMix p word .scrub, rfl⟩
    | scrubLineCheck n => exact .inl ⟨fun p => p.checkLine n .scrub, rfl⟩
    | _ => cases hc

/-- A row either runs as it does when it has waited, or is one of the nine that never wait. -/
theorem exec_cases (c : Instr) (s : State) :
    exec c s = .next (takeRow c s)
      ∨ (∃ h f, c = .highwayFrameArrival h f) ∨ (∃ i, c = .referenceFrame i) ∨ (∃ b1 b0 r n, c = .powerOn b1 b0 r n)
      ∨ c = .linkBreak ∨ c = .breakEnd ∨ c = .transmitFrameDone
      ∨ ∃ bytes, c = .frameReceived bytes ∨ c = .frameGapTimeout bytes ∨ c = .lenOutOfRange bytes := by
  cases c with
  | powerOn | linkBreak | frameReceived | frameGapTimeout | transmitFrameDone | referenceFrame | highwayFrameArrival
  | lenOutOfRange | breakEnd => simp
  | _ => exact .inl rfl

/-! ### What waits, taken -/

/-- What every waiting row keeps holds once everything that waits is taken. -/
theorem settle_keeps {P : State → Prop} (hrow : ∀ c s, P s → P (takeRow c s)) (fuel : Nat) (s : State) (h : P s) :
    P (s.settle fuel) := by
  induction fuel generalizing s with
  | zero => exact h
  | succ fuel ih =>
    unfold State.settle
    split
    · exact h
    · exact ih _ (hrow _ s h)

/-- The restart values have nothing in the model's own lists, and the link starts with empty queues (R206). -/
theorem restarted_linkLaw (s : State) (p : Part) :
    State.linkLaw { s with part := p.restarted, link := restartLink s.link p.restarted } :=
  (linkLaw_iff _).mpr ⟨bounded_announce bounded_idle .restart p.restarted, rfl, rfl⟩

theorem restartBegin_linkLaw (s : State) : s.restartBegin.linkLaw := restarted_linkLaw s _

theorem takeRow_linkLaw (c : Instr) (s : State) (h : s.linkLaw) : (takeRow c s).linkLaw := by
  rcases takeRow_cases c s with ⟨body, after, hafter, hrun⟩ | ⟨body, e⟩ | ⟨_, e⟩ | e
  · rw [(hrun s).2]; exact hostRun_linkLaw h c body hafter
  · rw [e]; exact eventRun_linkLaw h c body
  · rw [e]; exact restartBegin_linkLaw s
  · rw [e]; exact h

@[simp] theorem restartBegin_pending (s : State) : s.restartBegin.pending = s.pending := by
  simp only [State.restartBegin]

theorem takeRow_pending (c : Instr) (s : State) : (takeRow c s).pending = s.pending := by
  rcases takeRow_cases c s with ⟨body, after, _, hrun⟩ | ⟨body, e⟩ | ⟨_, e⟩ | e
  · rw [(hrun s).2]; exact hostRun_pending c body after s
  · rw [e]; exact eventRun_pending c body s
  · rw [e]; exact restartBegin_pending s
  · rw [e]

/-! ### A reference frame -/

theorem frame_linkLaw {s : State} (h : s.linkLaw) (i : FrameInput) : (s.frame i).linkLaw := by
  have hsettled := settle_keeps takeRow_linkLaw settleFuel s h
  unfold State.frame
  exact finish_linkLaw (s := { s.settle settleFuel with part := (s.settle settleFuel).part.frame i })
    ((linkLaw_iff _).mp hsettled).1

theorem frame_pending (s : State) (i : FrameInput) : (s.frame i).pending = s.pending := by
  have hsettled := settle_keeps (P := fun t => t.pending = s.pending)
    (fun c t h => (takeRow_pending c t).trans h) settleFuel s rfl
  unfold State.frame
  exact (finish_leaves _).2.2.2.2.trans hsettled

/-- READY finds both queues empty and the serial 0 (R207). -/
theorem ready_linkLaw {s : State} (h : s.linkLaw) : s.ready.linkLaw := by
  obtain ⟨hlink, hearly, hout⟩ := (linkLaw_iff s).mp h
  have hempty : ({ s.link with phase := .running, start := .power, rxBuf := [], replies := [], notices := [],
                               serial := 0 } : Link).Bounded :=
    ⟨Nat.zero_le _, Nat.zero_le _, Nat.zero_lt_succ _, hlink.crcErrors, hlink.gaps, hlink.overruns⟩
  have hready := bounded_announce hempty .power s.part.startConds
  refine (linkLaw_iff s.ready).mpr ⟨hready, ?_, ?_⟩
  · simpa only [State.ready, Part.startConds] using hearly
  · simpa only [State.ready, Part.startConds] using hout

theorem countStart_linkLaw {s : State} (h : s.linkLaw) : s.countStart.linkLaw := by
  unfold State.countStart
  split
  · exact h
  · exact ready_linkLaw h
  all_goals exact h

/-! ### The receiver and the transmitter -/

/-- What CP makes of a complete frame (R199): an overrun, or with a place free an answer at once, which for a RESTART is OK,
or a command handed over. -/
theorem takeFrame_cases (s : State) (kind tag : Byte) (payload : List Byte) :
    s.takeFrame kind tag payload = { s with link := { s.link with overruns := min 65535 (s.link.overruns + 1) } }
      ∨ (s.link.replies.length < 8
        ∧ ((∃ n k r, s.takeFrame kind tag payload = s.turnAway n k r)
          ∨ (∃ n k r, s.takeFrame kind tag payload
              = { s.turnAway n k r with link := (s.turnAway n k r).link.takeRestart })
          ∨ ∃ n k i, s.takeFrame kind tag payload
              = { s with link := s.link.holdPlace n k, part := s.part.raise i })) := by
  unfold State.takeFrame
  split
  · exact .inl rfl
  · rename_i hroom
    refine .inr ⟨Nat.not_le.mp hroom, ?_⟩
    split
    · exact .inl ⟨_, _, _, rfl⟩
    · split
      · exact .inl ⟨_, _, _, rfl⟩
      · split
        · exact .inl ⟨_, _, _, rfl⟩
        · unfold State.takeCommand
          dsimp only
          split
          · exact .inl ⟨_, _, _, rfl⟩
          · exact .inl ⟨_, _, _, rfl⟩
          · split
            · exact .inl ⟨_, _, _, rfl⟩
            · split
              · exact .inr (.inl ⟨_, _, _, rfl⟩)
              · exact .inr (.inr ⟨_, _, _, rfl⟩)

theorem takeFrame_linkLaw (kind tag : Byte) (payload : List Byte) (s : State) (h : s.linkLaw) :
    (s.takeFrame kind tag payload).linkLaw := by
  obtain ⟨hlink, hearly, hout⟩ := (linkLaw_iff s).mp h
  rcases takeFrame_cases s kind tag payload with e | ⟨hroom, ⟨n, k, r, e⟩ | ⟨n, k, r, e⟩ | ⟨n, k, i, e⟩⟩ <;>
    rw [e] <;> refine (linkLaw_iff _).mpr ⟨?_, hearly, hout⟩
  · exact bounded_overrun hlink
  · exact bounded_replyAtOnce hlink hroom _ _ _ _
  · exact bounded_takeRestart (bounded_replyAtOnce hlink hroom _ _ _ _)
  · exact bounded_holdPlace hlink hroom _ _

theorem takeFrame_pending (kind tag : Byte) (payload : List Byte) (s : State) :
    (s.takeFrame kind tag payload).pending = s.pending := by
  rcases takeFrame_cases s kind tag payload with e | ⟨_, ⟨n, k, r, e⟩ | ⟨n, k, r, e⟩ | ⟨n, k, i, e⟩⟩ <;> rw [e] <;> rfl

/-- What the taking of a frame, a CRC error counted and the receiver's own bytes keep, the receiver keeps (R197). -/
theorem scan_keeps {P : State → Prop} (hbuf : ∀ s b, P s → P { s with link := { s.link with rxBuf := b } })
    (hcrc : ∀ s : State, P s → P { s with link := { s.link with crcErrors := min 65535 (s.link.crcErrors + 1) } })
    (htake : ∀ kind tag payload s, P s → P (s.takeFrame kind tag payload)) (fuel : Nat) (bytes : List Byte) (s : State)
    (h : P s) : P (State.scan fuel bytes s) := by
  induction fuel generalizing bytes s with
  | zero => exact h
  | succ fuel ih =>
    unfold State.scan
    split
    · exact hbuf s _ h
    · split
      · exact hbuf s _ h
      · split
        · exact ih _ _ h
        · split
          · exact hbuf s _ h
          · split
            · exact ih _ _ h
            · split
              · exact hbuf s _ h
              · dsimp only
                split
                · exact ih _ _ (htake _ _ _ s h)
                · exact ih _ _ (hcrc s h)

theorem receive_linkLaw {s : State} (h : s.linkLaw) (bytes : List Byte) : (s.receive bytes).linkLaw := by
  unfold State.receive
  split
  · exact h
  · refine scan_keeps (fun _ _ h => h) (fun s h => ?_) takeFrame_linkLaw _ _ s h
    obtain ⟨hlink, hearly, hout⟩ := (linkLaw_iff s).mp h
    exact (linkLaw_iff _).mpr ⟨bounded_crcError hlink, hearly, hout⟩

theorem receive_pending (s : State) (bytes : List Byte) : (s.receive bytes).pending = s.pending := by
  unfold State.receive
  split
  · rfl
  · exact scan_keeps (P := fun t => t.pending = s.pending) (fun _ _ h => h) (fun _ h => h)
      (fun kind tag payload t h => (takeFrame_pending kind tag payload t).trans h) _ _ s rfl

/-- A RESTART begins when its reply has gone, or held results go to CP. -/
theorem transmitDone_cases (s : State) :
    s.transmitDone = s ∨ s.transmitDone = State.beginRestart { s with link := { s.link with tx := none } }
      ∨ s.transmitDone = State.flushOps { s with link := ({ s.link with tx := none } : Link).pump } := by
  unfold State.transmitDone
  split
  · exact .inl rfl
  · dsimp only
    split
    · exact .inr (.inl rfl)
    · exact .inr (.inr rfl)

theorem linkBreak_cases (s : State) :
    s.linkBreak = State.beginRestart { s with link := s.link.break }
      ∨ s.linkBreak = State.flushOps { s with link := s.link.break.pump } := by
  unfold State.linkBreak
  dsimp only
  split
  · exact .inl rfl
  · exact .inr rfl

theorem transmitDone_linkLaw {s : State} (h : s.linkLaw) : s.transmitDone.linkLaw := by
  obtain ⟨hlink, hearly, hout⟩ := (linkLaw_iff s).mp h
  have hidle : ({ s.link with tx := none } : Link).Bounded := { hlink with }
  rcases transmitDone_cases s with e | e | e <;> rw [e]
  · exact h
  · exact (linkLaw_iff _).mpr ⟨{ hlink with }, hearly, hout⟩
  · exact flushOps_linkLaw ((linkLaw_iff _).mpr ⟨bounded_pump hidle, hearly, hout⟩)

theorem linkBreak_linkLaw {s : State} (h : s.linkLaw) : s.linkBreak.linkLaw := by
  obtain ⟨hlink, hearly, hout⟩ := (linkLaw_iff s).mp h
  have hbreak := bounded_break hlink
  rcases linkBreak_cases s with e | e <;> rw [e]
  · exact (linkLaw_iff _).mpr ⟨{ hbreak with }, hearly, hout⟩
  · exact flushOps_linkLaw ((linkLaw_iff _).mpr ⟨bounded_pump hbreak, hearly, hout⟩)

/-! ### Every row -/

/-- Every row leads to a next state, which keeps the bounds of the link and the queue of commands. -/
theorem exec_next (c : Instr) (s : State) :
    ∃ t, exec c s = .next t ∧ t.pending = s.pending ∧ (s.linkLaw → t.linkLaw) := by
  rcases exec_cases c s with e | ⟨h, f, rfl⟩ | ⟨i, rfl⟩ | ⟨b1, b0, r, n, rfl⟩ | rfl | rfl | rfl | ⟨bytes, rfl | rfl | rfl⟩
  · exact ⟨_, e, takeRow_pending c s, takeRow_linkLaw c s⟩
  · exact ⟨_, rfl, eventRun_pending _ _ s, fun hs => eventRun_linkLaw hs _ _⟩
  · exact ⟨_, rfl, (countStart_pending _).trans (frame_pending s i), fun hs => countStart_linkLaw (frame_linkLaw hs i)⟩
  · refine ⟨_, rfl, rfl, fun _ => (linkLaw_iff _).mpr ⟨bounded_idle, rfl, rfl⟩⟩
  · refine ⟨_, rfl, ?_, linkBreak_linkLaw⟩
    rcases linkBreak_cases s with e | e <;> rw [e]
    · rfl
    · exact (flushOps_keeps _).2.2.2.2.2
  · exact ⟨_, rfl, rfl, id⟩
  · refine ⟨_, rfl, ?_, transmitDone_linkLaw⟩
    rcases transmitDone_cases s with e | e | e <;> rw [e]
    · rfl
    · exact (flushOps_keeps _).2.2.2.2.2
  · exact ⟨_, rfl, receive_pending s bytes, fun hs => receive_linkLaw hs bytes⟩
  · refine ⟨_, rfl, receive_pending s bytes, fun hs => ?_⟩
    obtain ⟨hlink, hearly, hout⟩ := (linkLaw_iff _).mp (receive_linkLaw hs bytes)
    exact (linkLaw_iff _).mpr ⟨bounded_dropPartial hlink, hearly, hout⟩
  · exact ⟨_, rfl, receive_pending s bytes, fun hs => receive_linkLaw hs bytes⟩

/-- Settles O1: the two cases of a step. -/
theorem stepRunsFrontCommand : Obligations.StepRunsFrontCommand := by
  refine ⟨fun c rest s hs => ?_, fun s hs => ?_⟩ <;> unfold step <;> rw [hs]

/-- Settles O2. -/
theorem execAnswersNextAndKeepsQueue : Obligations.ExecAnswersNextAndKeepsQueue := by
  intro c s
  obtain ⟨t, hexec, hpending, _⟩ := exec_next c s
  exact ⟨t, hexec, hpending⟩

/-- Settles O6: the queue of commands is no part of the bounds, and every row keeps them. -/
theorem linkLawKept : Obligations.LinkLawKept := by
  intro s t hs hstep
  cases hq : s.pending with
  | nil =>
    rw [stepRunsFrontCommand.2 s hq] at hstep
    cases hstep
    exact hs
  | cons c rest =>
    rw [stepRunsFrontCommand.1 c rest s hq] at hstep
    obtain ⟨u, hexec, _, hkeeps⟩ := exec_next c { s with pending := rest }
    rw [hexec] at hstep
    cases hstep
    exact hkeeps hs

end Sys2Proof.Machine
end

section
/-! Proofs of the statements about what CP sends: notices queued or dropped (R201), a break (R198), the conditions'
acknowledgement (R204) and STATUS (R205). -/

namespace Sys2Proof.Machine

open Sys2Proof

/-! ### What the transmitter takes (R202) -/

/-- No reply can be taken: none is queued, or the oldest is not yet answered. -/
def Link.noReply (l : Link) : Prop := ∀ x, l.replies.head? = some x → x.answer = none

theorem pump_reply {l : Link} {tag : Nat} {k : ReplyKind} {r : Result} {i : Info} {rest : List Place} (htx : l.tx = none)
    (hphase : l.phase.silent = false) (hr : l.replies = { tag := tag, kind := k, answer := some (r, i) } :: rest) :
    l.pump = { l with replies := rest, tx := some (.reply tag k r i) } := by
  simp [Link.pump, htx, hphase, hr]

/-- With no reply to take, the choice is among the notices. -/
theorem pump_noReply {l : Link} (htx : l.tx = none) (hphase : l.phase.silent = false) (hr : l.noReply) :
    (l.notices = [] → l.pump = l)
      ∧ ∀ n rest, l.notices = n :: rest → l.pump = { l with notices := rest, tx := some (.notice n) } := by
  have hbusy : ¬(l.tx.isSome || l.phase.silent) = true := by simp [htx, hphase]
  unfold Link.pump
  rw [if_neg hbusy]
  split
  · rename_i hreplies
    have := hr _ (congrArg List.head? hreplies)
    cases this
  · exact ⟨fun hn => by rw [hn], fun n rest hn => by rw [hn]⟩

/-- Nothing to take leaves the link as it is, whether the transmitter is idle or not. -/
theorem pump_nothing {l : Link} (hr : l.noReply) (hn : l.notices = []) : l.pump = l := by
  rcases pump_cases l with h | ⟨_, _, _, _, _, _, hreplies, _⟩ | ⟨_, _, _, hnotices, _⟩
  · exact h
  · have := hr _ (congrArg List.head? hreplies)
    cases this
  · rw [hn] at hnotices
    cases hnotices

theorem pump_busy {l : Link} (h : l.tx.isSome = true) : l.pump = l := by
  simp [Link.pump, h]

/-! ### Notices (R201) -/

/-- The notice CP makes of what a block hands it. -/
def Link.stamped (l : Link) (now : Nat) (n : Notice) : QNotice := { serial := l.serial, time := now, body := n }

theorem queueNotice_room (now : Nat) {l : Link} (n : Notice) (h : l.notices.length < 64) :
    l.queueNotice now n
      = Link.pump { l with serial := (l.serial + 1) % 256, notices := l.notices ++ [l.stamped now n] } := by
  unfold Link.queueNotice
  rw [if_neg (Nat.not_le.mpr h)]
  rfl

/-- A queued notice stays queued or is taken. -/
theorem mem_notices_pump {l : Link} {q : QNotice} (h : q ∈ l.notices) :
    q ∈ l.pump.notices ∨ l.pump.tx = some (.notice q) := by
  rcases pump_cases l with hp | ⟨_, _, _, _, _, _, _, hp⟩ | ⟨n, rest, _, hn, hp⟩ <;> rw [hp]
  · exact .inl h
  · exact .inl h
  · rw [hn] at h
    rcases List.mem_cons.mp h with rfl | h
    · exact .inr rfl
    · exact .inl h

theorem queueNotice_queued (now : Nat) {l : Link} (n : Notice) (h : l.notices.length < 64) :
    l.stamped now n ∈ (l.queueNotice now n).notices
      ∨ (l.queueNotice now n).tx = some (.notice (l.stamped now n)) := by
  rw [queueNotice_room now n h]
  exact mem_notices_pump (List.mem_append_right _ List.mem_cons_self)

theorem queueNotice_noticesLost (now : Nat) {l : Link} (n : Notice) (h : l.notices.length < 64) :
    (l.queueNotice now n).noticesLost = l.noticesLost := by
  rw [queueNotice_room now n h, pump_noticesLost]

/-- The serial after 255 is 0. -/
theorem serial_after (k : Nat) : (k + 1) % 256 = if k = 255 then 0 else (k + 1) % 256 := by
  split
  · subst k; rfl
  · rfl

theorem flushEarly_idle {s : State} (h : s.part.early = []) : s.flushEarly = s := by
  have hpart : ({ s.part with early := [] } : Part) = s.part := by rw [← h]
  simp only [State.flushEarly, State.sendNotices, h, List.foldl_nil, hpart]

/-- An event that tells one notice, none ahead of it and no result waiting, hands it to CP and is over. -/
theorem finish_one {s : State} {n : Notice} (hearly : s.part.early = []) (hout : s.part.outbox = [n])
    (hops : s.part.opsDone = []) :
    s.finish = { s with part := { s.part with outbox := [] }, link := s.link.queueNotice s.part.tu.floorTime n } := by
  rw [State.finish, flushEarly_idle hearly, flushOps_idle s.flushOutbox hops]
  simp only [State.flushOutbox, State.sendNotices, hout, List.foldl_cons, List.foldl_nil]

/-- A RINGDOWN port in service that reports both edges tells LEAD and hands CC the rise or the fall (R29, R33). -/
theorem debouncedChangeBody_ringdown_both {p : Part} {n : Nat} {v : Bool} (hn : n < 192) (h : (p.port n).debounced ≠ v)
    (hprov : (p.port n).provisioned = true) (hserv : (p.port n).outOfService = false)
    (hkind : (p.port n).kind = .ringdown) (hedge : (p.port n).edge = .both) :
    debouncedChangeBody n v p
      = ((p.setPort n { p.port n with debounced := v, stable := 0 }).raise (if v then .riseEvent n else .fallEvent n)).note
          (.lead n v) := by
  have hwritten : ((p.setPort n { p.port n with debounced := v, stable := 0 }).port n).kind = .ringdown := by
    rw [port_setPort_same _ hn]; exact hkind
  rw [debouncedChangeBody_told h hprov hserv, leadEvent_ringdown hwritten v]
  exact if_pos (edgeSelects_iff.mpr (.inl hedge))

/-- Settles O10: a notice with and without room, and a debounced change whose LEAD finds the queue full. -/
theorem noticesQueuedOrDropped : Obligations.NoticesQueuedOrDropped := by
  refine ⟨fun now l n => ⟨fun hroom => ⟨?_, ?_, ?_, ?_⟩, fun hfull => queueNotice_full now l n hfull⟩, ?_⟩
  · exact queueNotice_queued now n hroom
  · rw [queueNotice_serial, ← serial_after]
  · exact queueNotice_noticesLost now n hroom
  · exact queueNotice_notices_le now l n (Nat.le_of_lt hroom)
  · intro n v s hn hfull hops hearly hout c p q hchange hprov hserv hkind hedge
    have hbody := debouncedChangeBody_ringdown_both hn hchange hprov hserv hkind hedge
    have hdone := finish_one (s := { s with part := debouncedChangeBody n v p }) (n := .lead n v)
      (by rw [hbody]; exact hearly) (by rw [hbody]; exact congrArg (· ++ [.lead n v]) hout) (by rw [hbody]; exact hops)
    have hrun : exec c s = .next (State.finish { s with part := debouncedChangeBody n v p }) := rfl
    rw [hrun, hdone, queueNotice_full _ _ _ (Nat.le_of_eq hfull.symm), hbody, ← hout]
    rfl

/-! ### Results held in op slots (R203) -/

/-- The one result that waits is queued as its OP_DONE when there is room, and its slot is free. -/
theorem flushOps_result {s : State} {i tag : Nat} {op : OpKind} {r : OpResult} (hd : s.part.opsDone = [i])
    (hroom : s.link.notices.length < 64)
    (hop : vget s.part.ops i none = some { tag := tag, op := op, result := some r }) :
    s.flushOps = { s with part := { s.part with ops := vset s.part.ops i none, opsDone := [] },
                          link := s.link.queueNotice s.part.tu.floorTime (.opDone tag op r) } := by
  have hfirst : s.flushOp = { s with part := { s.part with ops := vset s.part.ops i none, opsDone := [] },
                                     link := s.link.queueNotice s.part.tu.floorTime (.opDone tag op r) } := by
    simp only [State.flushOp, hd, if_neg (Nat.not_le.mpr hroom), hop]
  unfold State.flushOps
  rw [hfirst, flushOp_idle _ rfl, flushOp_idle _ rfl, flushOp_idle _ rfl]

/-! ### A break (R198) -/

/-- After a break no reply can be taken: what stays held has no answer. -/
theorem break_noReply (l : Link) : l.break.noReply := by
  intro x hx
  have := (List.mem_filter.mp (List.mem_of_head? hx)).2
  simpa using this

/-- A break leaves nothing to send. -/
theorem pump_break (l : Link) : l.break.pump = l.break := pump_nothing (break_noReply l) rfl

theorem linkBreak_restarts {s : State} (hp : s.link.phase = .restartTaken)
    (hr : s.link.replies.any Place.restartReply = true) :
    s.linkBreak = State.beginRestart { s with link := s.link.break } := if_pos ⟨hp, hr⟩

theorem linkBreak_flushes {s : State} (h : s.link.phase = .restartTaken → s.link.replies.any Place.restartReply = false) :
    s.linkBreak = State.flushOps { s with link := s.link.break } := by
  have hnot : ¬(s.link.phase = .restartTaken ∧ s.link.replies.any Place.restartReply = true) := by
    rintro ⟨hp, hr⟩
    simp [h hp] at hr
  unfold State.linkBreak
  dsimp only
  rw [if_neg hnot, pump_break]

/-- Settles O15: nothing waits in an op slot, or one result does, or the reply of a RESTART goes. -/
theorem linkBreakFlushes : Obligations.LinkBreakFlushes := by
  intro s
  refine ⟨fun hops hrestart => ?_, fun i tag op r hops hi hphase hop => ?_, fun hphase hreply => ?_⟩
  · show Host.Outcome.next s.linkBreak = _
    rw [linkBreak_flushes hrestart, flushOps_idle { s with link := s.link.break } hops]
    rfl
  · refine ⟨s.linkBreak, rfl, ?_⟩
    rw [linkBreak_flushes (fun h => by simp [hphase] at h), flushOps_result (s := { s with link := s.link.break }) hops (Nat.zero_lt_succ _) hop]
    exact ⟨queueNotice_carries _ _ _ (Nat.zero_lt_succ _), vget_vset_same _ hi _ _, rfl,
      queueNotice_noticesLost _ _ (Nat.zero_lt_succ _)⟩
  · refine ⟨s.linkBreak, rfl, ?_⟩
    rw [linkBreak_restarts hphase hreply]
    exact ⟨rfl, rfl, rfl⟩

/-! ### ACK_CONDITION and STATUS (R204, R205) -/

theorem ackConditionBody_eq {p : Part} {n : Nat} (h : n < 19) :
    ackConditionBody n p =
      let c := vget p.conds n {}
      { part := { p with conds := vset p.conds n { cause := c.cause, latch := c.latch && c.cause } }, result := .ok,
        info := .cond (c.latch && c.cause) c.cause } := if_neg (Nat.not_le.mpr h)

theorem ackConditionBody_badValue {p : Part} {n : Nat} (h : 19 ≤ n) : ackConditionBody n p = p.refuse .badValue := if_pos h

/-- Clearing the counts is nothing to what else stands still on the link. -/
theorem clearCounts_still {l m : Link} (h : l.still = m.still) :
    l.clearCounts.still = ({ m with crcErrors := 0, gaps := 0, overruns := 0 } : Link).still :=
  congrArg (fun x : Link => ({ x with crcErrors := 0, gaps := 0, overruns := 0 } : Link)) h

/-- What the answer to STATUS leaves: the counts are cleared, and nothing else of the link changes but its queues. -/
theorem conclude_clearCounts_leaves (s : State) (tag : Nat) (cmd : Cmd) (a : Answered) :
    Leaves { s with link := { s.link with crcErrors := 0, gaps := 0, overruns := 0 } }
      (s.conclude tag cmd a Link.clearCounts) a.part := by
  have hearly : (State.flushEarly { s with part := a.part }).link.still = s.link.still := by
    simp [State.flushEarly, State.sendNotices]
  let s1 : State := { State.flushEarly { s with part := a.part } with
    link := (State.flushEarly { s with part := a.part }).link.clearCounts.answer tag (.cmd cmd) a.result a.info }
  show Leaves _ s1.flushOutbox.flushOps a.part
  obtain ⟨hblocks, hevents, _, _, hstill, hpending⟩ := flushOps_keeps s1.flushOutbox
  refine ⟨hblocks, hevents, fun hd => ?_, hstill.trans ?_, hpending⟩
  · rw [flushOps_idle s1.flushOutbox hd]
    exact ⟨rfl, hd⟩
  · simp only [s1, State.flushOutbox, State.sendNotices, queueAll_still, answer_still]
    exact clearCounts_still hearly

/-- A result that goes to CP finds room, so that no notice is lost with it (R203). -/
theorem flushOp_noticesLost (s : State) : s.flushOp.link.noticesLost = s.link.noticesLost := by
  rcases flushOp_cases s with e | ⟨_, _, _, _, e⟩ | ⟨_, _, n, _, hroom, e⟩ <;> rw [e]
  exact queueNotice_noticesLost _ n hroom

theorem flushOps_noticesLost (s : State) : s.flushOps.link.noticesLost = s.link.noticesLost := by
  simp only [State.flushOps, flushOp_noticesLost]

/-- A STATUS that tells nothing leaves notices-lost clear (R205). -/
theorem conclude_clearCounts_noticesLost (s : State) (tag : Nat) (cmd : Cmd) (a : Answered) (hout : a.part.outbox = []) :
    (s.conclude tag cmd a Link.clearCounts).link.noticesLost = false := by
  unfold State.conclude
  rw [flushOps_noticesLost]
  simp [State.flushOutbox, State.sendNotices, hout, Link.answer, Link.clearCounts]

theorem handed_noticesLost (s : State) (c : Instr) : (s.handed c).link.noticesLost = s.link.noticesLost := by
  unfold State.handed
  split
  · rfl
  · split <;> rfl

/-- A table read by number finds what its list holds there. -/
theorem toList_map_getElem? {α β : Type} {n : Nat} (v : Vector α n) (f : α → β) {i : Nat} (h : i < n) (d : α) :
    (v.toList.map f)[i]? = some (f (vget v i d)) := by
  simp [vget_of_lt v h, h]

/-- Settles O18. -/
theorem conditionsAckedStatusReported : Obligations.ConditionsAckedStatusReported := by
  refine ⟨fun tag n s ht => ⟨fun hn => ?_, fun hn => ?_⟩, fun tag s ht => ?_⟩
  · obtain ⟨t, hexec, hreply, hleaves⟩ :=
      commandRun_answered (body := ackConditionBody n) rfl rfl ht (ackConditionBody_eq hn)
    exact ⟨t, hexec, hleaves, hreply⟩
  · exact commandRun_refused (body := ackConditionBody n) rfl rfl ht (ackConditionBody_badValue hn)
  · obtain ⟨_, _, hc, hrun, hpart, hplace⟩ := hostRun_takes ht statusBody Link.clearCounts
    cases hc
    let a := statusBody (s.handed (.status tag)).link (s.part.took (.status tag))
    have hexec : exec (.status tag) s = .next ((s.handed (.status tag)).conclude tag .status a Link.clearCounts) := by
      show Host.Outcome.next (hostRun (.status tag) statusBody Link.clearCounts s) = _
      rw [hrun, State.runOwner, hpart]
    obtain ⟨hblocks, hevents, hops, hlink, hpending⟩ :=
      conclude_clearCounts_leaves (s.handed (.status tag)) tag .status a
    have hstill := handed_still s (.status tag)
    refine ⟨_, statusReport (s.handed (.status tag)).link (s.part.took (.status tag)), hexec, ?_, ?_, ?_⟩
    · exact conclude_replied _ tag .status a _ (fun _ => rfl) hplace
    · exact ⟨hblocks, hevents, hops, hlink.trans (clearCounts_still hstill), hpending.trans (handed_pending s _)⟩
    · obtain ⟨hstart, hcrc, hgaps, hoverruns⟩ := reported_of_still hstill
      refine ⟨hstart, rfl, rfl, ?_, rfl, rfl, rfl, rfl, rfl, rfl, rfl, hcrc, hgaps, hoverruns, fun _ hout => ⟨?_, ?_⟩⟩
      · exact fun h hh => ⟨toList_map_getElem? _ _ hh _, toList_map_getElem? _ _ hh _⟩
      · exact handed_noticesLost s _
      · exact conclude_clearCounts_noticesLost _ tag .status a hout

end Sys2Proof.Machine
end

section
/-! Proofs of the statements about the link's bytes: the receiver (R196 to R199, R208) and the transmitter (R199 to R203, R206
to R208). -/

namespace Sys2Proof.Machine

open Sys2Proof

/-! ### KIND codes (R208) -/

theorem mem_allCmds (c : Cmd) : c ∈ allCmds := by cases c <;> decide

/-- In a list without two values alike an element is known by its value. -/
theorem eq_of_nodup_map {α β : Type} {f : α → β} {xs : List α} (h : (xs.map f).Nodup) {x y : α} (hx : x ∈ xs) (hy : y ∈ xs)
    (hxy : f x = f y) : x = y := by
  induction xs with
  | nil => cases hx
  | cons z zs ih =>
    obtain ⟨hz, hzs⟩ := List.nodup_cons.mp h
    rcases List.mem_cons.mp hx with hxz | hxs
    · rcases List.mem_cons.mp hy with hyz | hys
      · exact hxz.trans hyz.symm
      · exact absurd (hxz ▸ hxy ▸ List.mem_map_of_mem hys) hz
    · rcases List.mem_cons.mp hy with hyz | hys
      · exact absurd (hyz ▸ hxy ▸ List.mem_map_of_mem hxs) hz
      · exact ih hzs hxs hys

/-- A command's KIND is the one under which the table lists it. -/
theorem mem_kindTable_iff {c : Cmd} {k : Nat} : (c, k) ∈ kindTable ↔ k = (cmdKind c).toNat := by
  obtain ⟨hcmds, hrange, _⟩ := kindTable_spec
  have hnodup : (kindTable.map Prod.fst).Nodup := by rw [hcmds]; decide
  have hlisted : ∃ x ∈ kindTable, x.1 = c := List.mem_map.mp (hcmds ▸ mem_allCmds c)
  have hmem : (c, (cmdKind c).toNat) ∈ kindTable := by
    cases hfound : kindTable.lookup c with
    | none =>
      obtain ⟨x, hx, hxc⟩ := hlisted
      have := List.lookup_eq_none_iff.mp hfound x hx
      simp [hxc] at this
    | some j =>
      obtain ⟨before, after, htable, _⟩ := List.lookup_eq_some_iff.mp hfound
      have hj : (c, j) ∈ kindTable := by rw [htable]; exact List.mem_append_right _ List.mem_cons_self
      have hle := (hrange _ hj).2
      have hkind : (cmdKind c).toNat = j := by
        rw [cmdKind, hfound, Option.getD_some, BitVec.toNat_ofNat]
        exact Nat.mod_eq_of_lt (by omega)
      rw [hkind]
      exact hj
  constructor
  · intro h
    exact congrArg Prod.snd (eq_of_nodup_map hnodup h hmem rfl)
  · rintro rfl
    exact hmem

theorem cmdKind_range (c : Cmd) : 1 ≤ (cmdKind c).toNat ∧ (cmdKind c).toNat ≤ 0x5F :=
  kindTable_spec.2.1 _ (mem_kindTable_iff.mpr rfl)

theorem cmdKind_of_cmdOfKind {kind : Byte} {c : Cmd} (h : cmdOfKind kind = some c) : cmdKind c = kind := by
  obtain ⟨x, hfound, rfl⟩ := Option.map_eq_some_iff.mp h
  have hkind : x.2 = kind.toNat := by simpa using List.find?_some hfound
  have hlisted : x.2 = (cmdKind x.1).toNat := mem_kindTable_iff.mp (List.mem_of_find?_eq_some hfound)
  exact BitVec.eq_of_toNat_eq (hlisted.symm.trans hkind)

/-- No two commands have one KIND, so that a command is found by its own. -/
theorem cmdOfKind_cmdKind (c : Cmd) : cmdOfKind (cmdKind c) = some c := by
  have hmem : (c, (cmdKind c).toNat) ∈ kindTable := mem_kindTable_iff.mpr rfl
  cases hfound : kindTable.find? fun x => x.2 == (cmdKind c).toNat with
  | none =>
    have := List.find?_eq_none.mp hfound _ hmem
    simp at this
  | some x =>
    have hkind : x.2 = (cmdKind c).toNat := by simpa using List.find?_some hfound
    have hsame := eq_of_nodup_map kindTable_spec.2.2 (List.mem_of_find?_eq_some hfound) hmem hkind
    rw [cmdOfKind, hfound, hsame]
    rfl

/-! ### The receiver's hunt (R197) -/

theorem clear_rxBuf {s : State} (h : s.link.rxBuf = []) : { s with link := { s.link with rxBuf := [] } } = s := by
  rw [← h]

section Scan

variable {s : State}

theorem scan_nil (fuel : Nat) (s : State) : State.scan (fuel + 1) [] s = { s with link := { s.link with rxBuf := [] } } := by
  unfold State.scan
  split <;> rfl

variable (hp : s.link.phase = .running)

include hp

/-- In hunt a byte that is no SYNC is passed over. -/
theorem scan_noSync (fuel : Nat) {b : Byte} (hb : b ≠ 0xA5) (rest : List Byte) :
    State.scan (fuel + 1) (b :: rest) s = State.scan fuel rest s := by
  conv => lhs; unfold State.scan
  rw [if_neg (not_not_intro hp)]
  exact if_pos hb

theorem scan_hunt {fuel : Nat} {bytes : List Byte} (hfuel : bytes.length < fuel) (hb : ∀ b ∈ bytes, b ≠ 0xA5) :
    State.scan fuel bytes s = { s with link := { s.link with rxBuf := [] } } := by
  induction bytes generalizing fuel with
  | nil =>
    obtain ⟨n, rfl⟩ := Nat.exists_eq_succ_of_ne_zero (Nat.ne_of_gt hfuel)
    exact scan_nil n s
  | cons b rest ih =>
    obtain ⟨n, rfl⟩ := Nat.exists_eq_succ_of_ne_zero (Nat.ne_of_gt (Nat.zero_lt_of_lt hfuel))
    rw [scan_noSync hp n (hb b List.mem_cons_self)]
    exact ih (Nat.lt_of_succ_lt_succ hfuel) fun x hx => hb x (List.mem_cons_of_mem _ hx)

variable (fuel : Nat) {len : Byte}

theorem scan_badLen (hlen : len.toNat < 2 ∨ 250 < len.toNat) (body : List Byte) :
    State.scan (fuel + 1) (0xA5 :: len :: body) s = State.scan fuel (len :: body) s := by
  rw [State.scan, if_neg (not_not_intro hp)]
  exact (if_neg (not_not_intro rfl)).trans (if_pos hlen)

section InRange

variable (hlow : 2 ≤ len.toNat) (hhigh : len.toNat ≤ 250)

include hlow hhigh

theorem scan_partial {body : List Byte} (hbody : body.length < len.toNat + 2) :
    State.scan (fuel + 1) (0xA5 :: len :: body) s
      = { s with link := { s.link with rxBuf := 0xA5 :: len :: body } } := by
  rw [State.scan, if_neg (not_not_intro hp)]
  exact (if_neg (not_not_intro rfl)).trans ((if_neg (by omega)).trans (if_pos hbody))

/-- A frame that is all there is taken when its CRC is right; otherwise it is counted, and the hunt resumes after the SYNC. -/
theorem scan_complete {inner crc : List Byte} (hinner : inner.length = len.toNat) (hcrc : crc.length = 2) :
    State.scan (fuel + 1) (0xA5 :: len :: (inner ++ crc)) s
      = if bytesBE 2 (crc16 (len :: inner)).toNat = crc then
          State.scan fuel [] (s.takeFrame (inner.getD 0 0) (inner.getD 1 0) (inner.drop 2))
        else State.scan fuel (len :: (inner ++ crc))
          { s with link := { s.link with crcErrors := min 65535 (s.link.crcErrors + 1) } } := by
  have htake : (inner ++ crc).take len.toNat = inner := by rw [← hinner, List.take_left]
  have hdrop : (inner ++ crc).drop len.toNat = crc := by rw [← hinner, List.drop_left]
  have hafter : (inner ++ crc).drop (len.toNat + 2) = [] := by
    rw [List.drop_eq_nil_iff, List.length_append]; omega
  rw [State.scan, if_neg (not_not_intro hp)]
  refine (if_neg (not_not_intro rfl)).trans ((if_neg (by omega)).trans ((if_neg ?_).trans ?_))
  · rw [List.length_append]; omega
  · simp only [htake, hdrop, hafter, List.take_of_length_le (Nat.le_of_eq hcrc)]

end InRange

end Scan

/-! ### Bytes at the receiver (R198, R206) -/

section Receive

variable {s : State}

/-- In a break, or when no frame is taken, every byte is discarded. -/
theorem receive_deaf (h : s.link.phase ≠ .running ∨ s.link.inBreak = true) (bytes : List Byte) : s.receive bytes = s :=
  if_pos h.symm

variable (hp : s.link.phase = .running) (hb : s.link.inBreak = false)

include hp hb

theorem receive_fresh (hx : s.link.rxBuf = []) (bytes : List Byte) :
    s.receive bytes = State.scan (bytes.length + 1) bytes s := by
  have hopen : ¬(s.link.inBreak = true ∨ s.link.phase ≠ .running) := by simp [hp, hb]
  unfold State.receive
  rw [if_neg hopen, hx]
  rfl

end Receive

/-! ### Complete frames (R196, R199) -/

theorem turnAway_rxBuf {s : State} (h : s.link.rxBuf = []) (n : Nat) (k : ReplyKind) (r : Result) :
    (s.turnAway n k r).link.rxBuf = [] := by
  have hstill := congrArg Link.rxBuf (replyAtOnce_still s.link n k r .none)
  exact Eq.trans hstill h

theorem takeFrame_rxBuf {s : State} (h : s.link.rxBuf = []) (kind tag : Byte) (payload : List Byte) :
    (s.takeFrame kind tag payload).link.rxBuf = [] := by
  rcases takeFrame_cases s kind tag payload with e | ⟨_, ⟨n, k, r, e⟩ | ⟨n, k, r, e⟩ | ⟨n, k, i, e⟩⟩ <;> rw [e]
  · exact h
  · exact turnAway_rxBuf h n k r
  · rfl
  · exact h

theorem frameBytes_eq (kind tag : Byte) (payload : List Byte) :
    frameBytes kind tag payload
      = [0xA5, BitVec.ofNat 8 (payload.length + 2), kind, tag] ++ payload
          ++ bytesBE 2 (crc16 (BitVec.ofNat 8 (payload.length + 2) :: kind :: tag :: payload)).toNat := by
  simp [frameBytes, syncByte]

/-- The bytes of a frame bring the receiver from hunt to hunt and hand CP what the frame holds (R196, R197). -/
theorem receive_frameBytes {s : State} (hp : s.link.phase = .running) (hb : s.link.inBreak = false)
    (hx : s.link.rxBuf = []) (kind tag : Byte) {payload : List Byte} (hlen : payload.length ≤ 248) :
    s.receive (frameBytes kind tag payload) = s.takeFrame kind tag payload := by
  have hnat : (BitVec.ofNat 8 (payload.length + 2)).toNat = payload.length + 2 := by
    rw [BitVec.toNat_ofNat]; exact Nat.mod_eq_of_lt (by omega)
  have hframe : frameBytes kind tag payload
      = 0xA5 :: BitVec.ofNat 8 (payload.length + 2) :: ((kind :: tag :: payload)
          ++ bytesBE 2 (crc16 (BitVec.ofNat 8 (payload.length + 2) :: kind :: tag :: payload)).toNat) := by
    simp [frameBytes_eq]
  rw [receive_fresh hp hb hx, hframe, scan_complete hp _ (by omega) (by omega) (by simp [hnat]) (by simp), if_pos rfl]
  exact (scan_nil _ _).trans (clear_rxBuf (takeFrame_rxBuf hx kind tag payload))

section TakeFrame

variable {s : State} {tag : Byte}

theorem takeFrame_overrun (h : 8 ≤ s.link.replies.length) (kind tag : Byte) (payload : List Byte) :
    s.takeFrame kind tag payload = { s with link := { s.link with overruns := min 65535 (s.link.overruns + 1) } } :=
  if_pos h

variable (hroom : s.link.replies.length < 8)

include hroom

theorem takeFrame_tagZero (kind : Byte) (payload : List Byte) :
    s.takeFrame kind 0 payload = s.turnAway 0 (.raw kind) .badFormat := by
  rw [State.takeFrame, if_neg (Nat.not_le.mpr hroom), if_pos rfl]

variable (htag : tag ≠ 0)

include htag

theorem takeFrame_unknownKind {kind : Byte} (hkind : kind = 0 ∨ 0x60 ≤ kind.toNat) (payload : List Byte) :
    s.takeFrame kind tag payload = s.turnAway tag.toNat (.raw kind) .unknownKind := by
  have hnone : commandKind kind = false := by
    rw [commandKind, decide_eq_false_iff_not]
    rcases hkind with rfl | hkind
    · decide
    · omega
  rw [State.takeFrame, if_neg (Nat.not_le.mpr hroom), if_neg htag, if_pos hnone]

/-- A frame of a command's KIND goes on as that command. -/
theorem takeFrame_cmdKind (c : Cmd) (payload : List Byte) :
    s.takeFrame (cmdKind c) tag payload = s.takeCommand c tag payload := by
  have hkind : ¬commandKind (cmdKind c) = false := by
    rw [commandKind, decide_eq_false_iff_not]; exact not_not_intro (cmdKind_range c)
  rw [State.takeFrame, if_neg (Nat.not_le.mpr hroom), if_neg htag, if_neg hkind, cmdOfKind_cmdKind]

end TakeFrame

/-- What CP makes of a command's payload of a wrong length (R199 check 3). -/
theorem takeCommand_badLength {s : State} {c : Cmd} {tag : Byte} {payload : List Byte}
    (h : readFrame c tag.toNat payload = .badLength) :
    s.takeCommand c tag payload = s.turnAway tag.toNat (.cmd c) .badFormat := by
  simp only [State.takeCommand, h]

/-- A command is handed over, its place held (R199). -/
theorem takeCommand_handed {s : State} {c : Cmd} {tag : Byte} {payload : List Byte} {i : Instr}
    (h : readFrame c tag.toNat payload = .command i) (hformat : formatOk i = true) (hc : c ≠ .restart) :
    s.takeCommand c tag payload
      = { s with link := s.link.holdPlace tag.toNat (.cmd c), part := s.part.raise i } := by
  simp [State.takeCommand, h, hformat, hc]

/-- A RESTART is answered with its frame (R206). -/
theorem takeCommand_restart {s : State} {tag : Byte} {payload : List Byte} {i : Instr}
    (h : readFrame .restart tag.toNat payload = .command i) (hformat : formatOk i = true) :
    s.takeCommand .restart tag payload
      = { s with link := (s.turnAway tag.toNat (.cmd .restart) .ok).link.takeRestart } := by
  simp [State.takeCommand, h, hformat, State.turnAway]

/-- A command without a list has no count to agree with (R199 check 3). -/
theorem formatOk_bare {i : Instr} {tag : Nat} {c : Cmd} (hi : i.host? = some (tag, c))
    (hc : c ∈ [Cmd.digest, .readFault, .clearFault, .status, .restart]) : formatOk i = true := by
  cases i with
  | defineGroup | cueLoad | schedule => cases hi; simp at hc
  | _ => rfl

/-- Each command without arguments has a row under every tag. -/
theorem bare_hosted (tag : Nat) {c : Cmd} (hc : c ∈ [Cmd.digest, .readFault, .clearFault, .status, .restart]) :
    ∃ i : Instr, i.host? = some (tag, c) := by
  simp only [List.mem_cons, List.not_mem_nil, or_false] at hc
  rcases hc with rfl | rfl | rfl | rfl | rfl
  · exact ⟨.digest tag, rfl⟩
  · exact ⟨.readFault tag, rfl⟩
  · exact ⟨.clearFault tag, rfl⟩
  · exact ⟨.status tag, rfl⟩
  · exact ⟨.restart tag, rfl⟩

/-- A frame turned away is answered at once: behind the places held before while a frame is being sent, and queued or sent in
any case (R199). -/
theorem turnAway_answers (s : State) (n : Nat) (k : ReplyKind) (r : Result) :
    (s.turnAway n k r).part = s.part
      ∧ (s.link.tx.isSome = true → (s.turnAway n k r).link.replies
          = s.link.replies ++ [{ tag := n, kind := k, answer := some (r, .none) }])
      ∧ ((s.turnAway n k r).link.tx = some (.reply n k r .none)
        ∨ ({ tag := n, kind := k, answer := some (r, .none) } : Place) ∈ (s.turnAway n k r).link.replies) := by
  refine ⟨rfl, fun hbusy => ?_, replyAtOnce_holds s.link n k r .none⟩
  rw [State.turnAway, replyAtOnce_busy hbusy]

theorem turnAway_busy {s : State} (h : s.link.tx.isSome = true) (n : Nat) (k : ReplyKind) (r : Result) :
    s.turnAway n k r = { s with link := { s.link with
      replies := s.link.replies ++ [{ tag := n, kind := k, answer := some (r, .none) }] } } := by
  rw [State.turnAway, replyAtOnce_busy h]

/-- A host command's own row is refused for its tag or its length with its arrival, whatever waits (R199 check 3). -/
theorem hostRun_malformed {c : Instr} {tag : Nat} {cmd : Cmd} {s : State} (hc : c.host? = some (tag, cmd))
    (hev : c ∉ s.part.events) (hp : s.link.phase = .running) (hb : s.link.inBreak = false)
    (hroom : s.link.replies.length < 8) (hbad : tag = 0 ∨ formatOk c = false) (body : Link → Part → Answered)
    (after : Link → Link) :
    hostRun c body after s = s.turnAway tag (.cmd cmd) .badFormat := by
  simp [hostRun, hc, hev, hp, hb, Nat.not_le.mpr hroom, hbad, State.turnAway]

/-- Settles O16, clause by clause. -/
theorem receiverTakesAndDiscards : Obligations.ReceiverTakesAndDiscards := by
  refine ⟨?frame, ?malformed, ?layouts, ?crc, ?gap, ?length, ?deaf, fun _ => rfl⟩
  case frame =>
    intro kind tag payload s hp hb hx hlen
    have hreceived := receive_frameBytes hp hb hx kind tag hlen
    refine ⟨_, rfl, hreceived, fun hfull => ?_, fun hroom htag => ?_, fun hroom htag hkind => ?_⟩ <;> rw [hreceived]
    · exact takeFrame_overrun hfull kind tag payload
    · subst htag
      rw [takeFrame_tagZero hroom]
      exact turnAway_answers s 0 (.raw kind) .badFormat
    · rw [takeFrame_unknownKind hroom htag hkind]
      exact turnAway_answers s tag.toNat (.raw kind) .unknownKind
  case malformed =>
    intro c tag cmd s hc hev hp hb hroom hbusy hbad
    obtain ⟨body, after, _, hrun⟩ := host_runsCommand (c := c) (by simp [hc])
    rw [(hrun s).1, hostRun_malformed hc hev hp hb hroom hbad, turnAway_busy hbusy]
  case layouts =>
    intro tag s hp hb hx hroom htag t frame
    have hframe : ∀ c payload, payload.length ≤ 248 → exec (frame c payload) s = .next (s.takeCommand c tag payload) := by
      intro c payload hlen
      show Host.Outcome.next (s.receive (frameBytes (cmdKind c) tag payload)) = _
      rw [receive_frameBytes hp hb hx _ _ hlen, takeFrame_cmdKind hroom htag]
    refine ⟨fun x => ?_, fun i c hi hc => ?_, fun hbusy => ?_, fun c payload hc hne hlen hbusy => ?_⟩
    · rw [hframe _ _ (by simp), takeCommand_handed (readFrame_setTime t x) rfl (by decide)]
    · have hbare : c ∈ [Cmd.digest, .readFault, .clearFault, .status, .restart] :=
        List.mem_append_left [Cmd.restart] hc
      have hread : readFrame c t [] = .command i := readFrame_bare hbare hi []
      have hother : c ≠ .restart := by rintro rfl; simp at hc
      rw [hframe _ _ (by simp), takeCommand_handed hread (formatOk_bare hi hbare) hother]
    · have hread : readFrame .restart t [] = .command (.restart t) := readFrame_bare (by simp) rfl []
      rw [hframe _ _ (by simp), takeCommand_restart hread rfl, turnAway_busy hbusy]
      simp [Link.takeRestart, hx, t]
    · have hread : readFrame c t payload = .badLength := by
        obtain ⟨i, hi⟩ := bare_hosted t hc
        rw [readFrame_bare hc hi, if_neg hne]
      rw [hframe _ _ hlen, takeCommand_badLength hread, turnAway_busy hbusy]
  case crc =>
    intro len inner crc s hp hb hx hlow hhigh hinner hcrc hwrong s1
    have hagain : s.receive (0xA5 :: len :: (inner ++ crc)) = s1.receive (len :: (inner ++ crc)) := by
      rw [receive_fresh hp hb hx, scan_complete hp _ hlow hhigh hinner hcrc, if_neg hwrong,
        receive_fresh (s := s1) hp hb hx]
      rfl
    refine ⟨congrArg Host.Outcome.next hagain, fun hnoSync => ?_⟩
    show Host.Outcome.next _ = _
    rw [hagain, receive_fresh (s := s1) hp hb hx, scan_hunt (s := s1) hp (Nat.lt_succ_self _) hnoSync,
      clear_rxBuf (s := s1) hx]
  case gap =>
    intro len body s hp hb hx hlow hhigh hbody
    show Host.Outcome.next _ = _
    rw [receive_fresh hp hb hx, scan_partial hp _ hlow hhigh hbody]
    simp [Link.dropPartial, hx]
  case length =>
    intro len s hp hb hx hlen
    have hnoSync : ∀ b ∈ [len], b ≠ (0xA5 : Byte) := by
      rintro b hmem rfl
      rw [← List.mem_singleton.mp hmem] at hlen
      simp at hlen
    show Host.Outcome.next _ = _
    rw [receive_fresh hp hb hx, scan_badLen hp _ hlen, scan_hunt hp (by simp) hnoSync, clear_rxBuf hx]
  case deaf =>
    intro bytes s hdeaf hx
    have hsame := receive_deaf hdeaf bytes
    refine ⟨congrArg Host.Outcome.next hsame, ?_, congrArg Host.Outcome.next hsame⟩
    show Host.Outcome.next _ = _
    rw [hsame, Link.dropPartial, if_pos hx]

/-! ### The bytes of a sent frame (R196, R199 to R201, R208) -/

/-- The payload of a sent frame: a reply's result byte or a notice's header, then the fields. -/
def TxFrame.payload (f : TxFrame) : List Byte :=
  match f with
  | .reply _ _ r _ => BitVec.ofNat 8 r.code :: f.fields
  | .notice q => q.headerBytes ++ f.fields

/-- The KIND byte of a sent frame. -/
def TxFrame.kindByte : TxFrame → Byte
  | .reply _ k _ _ => k.byte ||| 0x80
  | .notice q => q.body.kind

/-- The TAG byte of a sent frame. -/
def TxFrame.tagByte : TxFrame → Byte
  | .reply t _ _ _ => BitVec.ofNat 8 t
  | .notice _ => 0

theorem bytes_eq_frameBytes (f : TxFrame) : f.bytes = frameBytes f.kindByte f.tagByte f.payload := by
  cases f <;> rfl

@[simp] theorem headerBytes_length (q : QNotice) : q.headerBytes.length = 7 := by
  simp [QNotice.headerBytes]

theorem headerBytes_eq (q : QNotice) : q.headerBytes = BitVec.ofNat 8 q.serial :: bytesBE 6 q.time := by
  simp [QNotice.headerBytes, bytesBE]

/-- LEN has room for every payload (R208). -/
theorem payload_length (f : TxFrame) : 1 ≤ f.payload.length ∧ f.payload.length ≤ 248 := by
  cases f with
  | reply t k r i =>
    have hfields : (TxFrame.reply t k r i).fields.length ≤ 247 := fields_length (.reply t k r i)
    simp only [TxFrame.payload, List.length_cons]
    omega
  | notice q =>
    have hfields : (TxFrame.notice q).fields.length ≤ 241 := fields_length (.notice q)
    simp only [TxFrame.payload, List.length_append, headerBytes_length]
    omega

/-- The notices' KINDs are 0x60 to 0x6A (R201). -/
theorem noticeKind_range (n : Notice) : 0x60 ≤ n.kind.toNat ∧ n.kind.toNat ≤ 0x6A := by
  cases n <;> simp [Notice.kind]

/-! ### Fields of a given form (R208) -/

/-- A field of a given form stands whole among the fields, as far as these have room. -/
theorem mem_fieldBytes {limit : Nat} (free : Nat → List Byte) {given : List (List Byte)} {x : List Byte} (hx : x ∈ given)
    (h : given.flatten.length ≤ limit) : ∃ a b, fieldBytes limit free given = a ++ x ++ b := by
  rw [fieldBytes_eq free h]
  exact weave_mem free hx _ _

theorem flatten_length_of_forall {k : Nat} {xs : List (List Byte)} (h : ∀ x ∈ xs, x.length = k) :
    xs.flatten.length = k * xs.length := by
  rw [List.length_flatten, List.map_congr_left h, List.map_const', List.sum_replicate_nat, Nat.mul_comm]

/-- Eight journal entries and the oldest sequence number have room in a fetch's reply (R159). -/
theorem fetched_room {x : FetchReport} (hcount : x.entries.length ≤ 8) (hentry : ∀ y ∈ x.entries, y.length = 20) :
    (Info.fetched x).laidOut.flatten.length ≤ 247 := by
  have hentries := flatten_length_of_forall hentry
  have holdest : ((x.oldest.map (bytesBE 4)).toList).flatten.length ≤ 4 := by
    cases x.oldest <;> simp
  simp only [Info.laidOut, List.flatten_append, List.length_append]
  omega

/-- Of OP_DONE's fields, the result byte and a digest's CRC, all have room (R22, R203). -/
theorem opDone_room (tag : Nat) (op : OpKind) (r : OpResult) :
    (Notice.opDone tag op r).laidOut.flatten.length ≤ 241 := by
  cases r <;> simp [Notice.laidOut]

theorem opDone_result (tag : Nat) (op : OpKind) (r : OpResult) :
    [BitVec.ofNat 8 r.code] ∈ (Notice.opDone tag op r).laidOut := List.mem_cons_self

/-- Four fields in their order, with free bytes before, between and after them. -/
theorem weave_four (free : Nat → List Byte) (room k : Nat) (w x y z : List Byte) :
    ∃ a b c d e, weave free room k [w, x, y, z] = a ++ w ++ b ++ x ++ c ++ y ++ d ++ z ++ e := by
  simp only [weave, List.append_assoc]
  exact ⟨_, _, _, _, _, rfl⟩

theorem siliconRevision_pos : 1 ≤ Config.siliconRevision.toNat := by
  have := Config.revisionsAfterFirst.isLt
  rw [Config.siliconRevision, BitVec.toNat_ofNat, Nat.mod_eq_of_lt (by omega)]
  omega

/-! ### The end of a frame (R202, R203, R206) -/

/-- A frame other than a RESTART's reply gives way to what is queued, and then to a held result. -/
theorem transmitDone_running {s : State} {f : TxFrame} (htx : s.link.tx = some f) (hp : s.link.phase = .running) :
    s.transmitDone = State.flushOps { s with link := ({ s.link with tx := none } : Link).pump } := by
  have hnot : ¬(s.link.phase = .restartTaken ∧ f.endsForRestart = true) := by simp [hp]
  unfold State.transmitDone
  rw [htx]
  exact if_neg hnot

theorem transmitDone_idle {s : State} {f : TxFrame} (htx : s.link.tx = some f) (hp : s.link.phase = .running)
    (hops : s.part.opsDone = []) :
    s.transmitDone = { s with link := ({ s.link with tx := none } : Link).pump } := by
  rw [transmitDone_running htx hp]
  exact flushOps_idle { s with link := ({ s.link with tx := none } : Link).pump } hops

/-- The end of a RESTART's reply begins the restart (R206). -/
theorem transmitDone_restarts {s : State} {tag : Nat} {i : Info} (htx : s.link.tx = some (.reply tag (.cmd .restart) .ok i))
    (hp : s.link.phase = .restartTaken) :
    s.transmitDone = State.beginRestart { s with link := { s.link with tx := none } } := by
  unfold State.transmitDone
  rw [htx]
  exact if_pos ⟨hp, rfl⟩

/-- Settles O17: the bytes of a frame, the fields of a given form, the KINDs, and what follows a frame's end. -/
theorem transmitDoneChoosesNext : Obligations.TransmitDoneChoosesNext := by
  refine ⟨?frame, ?fetched, ?status, ?opDone, ?ready, fun c => ?kinds, fun _ _ => cmdKind_of_cmdOfKind, ?next⟩
  case frame =>
    intro f
    obtain ⟨hpos, hmax⟩ := payload_length f
    refine ⟨f.kindByte, f.tagByte, f.payload, ?_, hpos, hmax, ?_, ?_⟩
    · rw [bytes_eq_frameBytes, frameBytes_eq]
    · rintro n k r i rfl
      refine ⟨rfl, rfl, ?_, ?_⟩
      · rintro b rfl; rfl
      · rintro c rfl; rfl
    · rintro q rfl
      refine ⟨rfl, rfl, (noticeKind_range q.body).1, (noticeKind_range q.body).2, ?_⟩
      rw [← headerBytes_eq]
      exact List.take_left' (headerBytes_length q)
  case fetched =>
    intro tag k r x e hcount hentry he
    exact mem_fieldBytes _ (List.mem_append_left _ he) (fetched_room hcount hentry)
  case status =>
    intro tag k r x
    exact mem_fieldBytes _ (given := (Info.status x).laidOut) List.mem_cons_self (by simp [Info.laidOut])
  case opDone =>
    intro serial now tag op r
    exact mem_fieldBytes _ (opDone_result tag op r) (opDone_room tag op r)
  case ready =>
    intro serial now cause floorTime synced
    have hpart : bytesBE 2 4860 = [0x12, 0xFC] := by decide
    refine ⟨siliconRevision_pos, ?_⟩
    rw [← hpart]
    simp only [TxFrame.fields, Notice.laidOut]
    rw [fieldBytes_eq _ (by simp)]
    exact weave_four _ _ _ _ _ _ _
  case kinds => exact ⟨(cmdKind_range c).1, (cmdKind_range c).2, cmdOfKind_cmdKind c⟩
  case next =>
    intro f s htx
    have hsilent : s.link.phase = .running → s.link.phase.silent = false := fun hp => by rw [hp]; rfl
    refine ⟨?reply, ?notice, ?nothing, ?restart, ?result⟩
    case reply =>
      intro tag k r i rest hp hops hreplies
      show Host.Outcome.next _ = _
      rw [transmitDone_idle htx hp hops, pump_reply (l := { s.link with tx := none }) rfl (hsilent hp) hreplies]
    case notice =>
      intro n rest hp hops hreplies hnotices
      show Host.Outcome.next _ = _
      rw [transmitDone_idle htx hp hops,
        (pump_noReply (l := { s.link with tx := none }) rfl (hsilent hp) hreplies).2 n rest hnotices]
    case nothing =>
      intro hp hops hreplies hnotices
      show Host.Outcome.next _ = _
      rw [transmitDone_idle htx hp hops, pump_nothing (l := { s.link with tx := none }) hreplies hnotices]
    case restart =>
      rintro tag i hp rfl
      exact congrArg Host.Outcome.next (transmitDone_restarts htx hp)
    case result =>
      intro i tag op r hp hops hi hreplies hfull hop
      obtain ⟨n, rest, hnotices⟩ := List.exists_cons_of_length_eq_add_one hfull
      have hrest : rest.length = 63 := by simpa [hnotices] using hfull
      have hreply : ({ s.link with tx := none } : Link).noReply := fun x hx => by simp [hreplies] at hx
      have htaken := (pump_noReply (l := { s.link with tx := none }) rfl (hsilent hp) hreply).2 n rest hnotices
      refine ⟨s.transmitDone, rfl, ?_⟩
      rw [transmitDone_running htx hp, htaken,
        flushOps_result (s := { s with link := { s.link with notices := rest, tx := some (.notice n) } }) hops
          (by rw [hrest]; decide) hop]
      have hroom : ({ s.link with notices := rest, tx := some (.notice n) } : Link).notices.length < 64 := by
        rw [hrest]; decide
      refine ⟨vget_vset_same _ hi _ _, rfl, ?_, queueNotice_carries _ _ _ hroom⟩
      rw [queueNotice_room _ _ hroom, pump_busy rfl]
      simp [hrest]

end Sys2Proof.Machine
end
